-- ==== Sys2Proof/Word.lean ====
section
/-! DEFINITION. The word types of the engine: bytes (R9) and the 16-bit telemetry words (R74). -/

namespace Sys2Proof

/-- A byte, bits numbered 0 (least significant) to 7 (R9). -/
abbrev Byte := BitVec 8

/-- An unsigned 16-bit value (R74, "unsigned 2 bytes"). -/
abbrev U16 := BitVec 16

end Sys2Proof
end

