-- ==== Sys2Proof/Config.lean ====
section
/-! DEFINITION. The hardwired constants (R6), the implementation parameters (R7) and the one value the
spec leaves free, the telemetry drawn at each accepted request (R153, R214). -/

namespace Sys2Proof

/-- One reading of the telemetry inputs `tel_temp`, `tel_level`, `tel_freq` (R201). The temperature is the
int8's two's-complement pattern (R9, G2). -/
structure Telemetry where
  temperature : Byte
  level : U16
  frequency : U16
  deriving DecidableEq, Repr, Inhabited

/-- REQ_SYNC (R6). -/
def Config.reqSync : Byte := 0x31

/-- RESP_SYNC (R6). -/
def Config.respSync : Byte := 0x3E

/-- REQ_OPCODE (R6). -/
def Config.reqOpcode : Byte := 0x06

/-- RESP_OPCODE, "same numeric value as request opcode by design" (R6). -/
def Config.respOpcode : Byte := 0x06

/-- REQ_LEN (R6), as a value of the 3-bit byte counter. -/
def Config.reqLen : BitVec 3 := 4

/-- RESP_LEN (R6; 9 and not 8: 90_conflicts.md C1). -/
def Config.respLen : Nat := 9

/-- CRC_SEED (R6). -/
def Config.crcSeed : Byte := 0x00

/-- CRC_K[0..7] (R6, R77): the XOR constant of each input bit. -/
def Config.crcK : List Byte := [0x5E, 0xBC, 0x61, 0xC2, 0x9D, 0x23, 0x46, 0x8C]

/-- The smallest legal TXQ_CAP, one full response frame (R7, R126). -/
def Config.minCapacity : Nat := Config.respLen

/-- The reference value of TXQ_CAP (R7, D6). -/
def Config.referenceCapacity : Nat := 32

/-- ceil(log2 n) for n ≥ 1: how many powers of two lie below n. -/
def Config.ceilLog2 (n : Nat) : Nat := ((List.range n).filter fun k => 2 ^ k < n).length

/-- CNT_W, the width of q_head and q_tail (R7). -/
def Config.indexWidth (cap : Nat) : Nat := Config.ceilLog2 cap

/-- LEN_W, the width of q_count (R7). -/
def Config.countWidth (cap : Nat) : Nat := Config.ceilLog2 (cap + 1)

/-- FREE VALUE: the n-th telemetry draw that no input has fixed ("a draw at each accept, constrained only by
their widths", R214, D7). It has no body, so nothing can be proved about its value (log entry 3). -/
opaque Config.telemetryDraw : Nat → Telemetry

end Sys2Proof
end

