-- ==== Sys2Proof/Syntax.lean ====
section
/-! DEFINITION. The instructions: one constructor per row of spec/opcode_table.json. The engine is a
fixed-function block (R1): its instructions are input events (EV11, R80), the frames those events carry
(REQ32, R71; RESP72, R74) and the internal operations its rules invoke. -/

namespace Sys2Proof

/-- One constructor per row of the opcode table, in the table's order. -/
inductive Instr
  /-- READ_TELEMETRY (REQ32, R71, R78): the request frame `[0x31, address, 0x06, crc]`. -/
  | readTelemetry (address crc : Byte)
  /-- RESPONSE (RESP72, R74), the fields of bytes 1 and 3 to 8. -/
  | response (address temperature levelLo levelHi frequencyLo frequencyHi crc : Byte)
  /-- IDLE (EV11 `000`, R212). -/
  | idle
  /-- RX_BYTE (EV11 `1HH`, R171). -/
  | rxByte (d : Byte)
  /-- RX_BYTE.SYNC (word `131` while st = WaitHeader, R172). -/
  | rxByteSync
  /-- RX_BYTE.SYNC_LOSS (word `1HH`, HH ≠ 31, while st = WaitHeader, R173). -/
  | rxByteSyncLoss (d : Byte)
  /-- RX_BYTE.ADDRESS (word `1HH` while st = WaitAddress, R174). -/
  | rxByteAddress (d : Byte)
  /-- RX_BYTE.OPCODE (word `1HH` while st = WaitOpcode, R175). -/
  | rxByteOpcode (d : Byte)
  /-- RX_BYTE.CRC_ACCEPT (word `1HH` while st = WaitCrc, validation passed, R176, R177). -/
  | rxByteCrcAccept (d : Byte)
  /-- RX_BYTE.CRC_REJECT (word `1HH` while st = WaitCrc, validation failed, R176, R178). -/
  | rxByteCrcReject (d : Byte)
  /-- LINE_ERR (EV11 `200`, R179). -/
  | lineErr
  /-- TX_POP (EV11 `300`, R202). -/
  | txPop
  /-- TX_DONE (EV11 `400`, R204). -/
  | txDone
  /-- RESET (EV11 `500`, R260). -/
  | reset
  /-- RESERVED.KIND6 (kind 110, R82). -/
  | reservedKind6 (x : Byte)
  /-- RESERVED.KIND7 (kind 111, R82). -/
  | reservedKind7 (x : Byte)
  /-- RESERVED.DATA (a kind other than 001 with non-zero data, R82). -/
  | reservedData (kind : BitVec 3) (x : Byte)
  /-- CRC8_STEP (internal, R100). -/
  | crc8Step (byte crc : Byte)
  /-- CRC8 (internal, R102). -/
  | crc8 (bytes : List Byte)
  /-- ENQUEUE (internal, R121). -/
  | enqueue (b : Byte)
  /-- DEQUEUE (internal, R122). -/
  | dequeue
  /-- IS_EMPTY (internal, R123). -/
  | isEmpty
  /-- LEN (internal, R124). -/
  | len
  /-- IS_FULL (internal, R125). -/
  | isFull
  /-- ENQUEUE_FRAME (internal, R131). -/
  | enqueueFrame (r : List Byte)
  /-- BUILD_RESPONSE (internal, R150): `temperature` is the int8's pattern. -/
  | buildResponse (address temperature : Byte) (level frequency : U16)
  deriving DecidableEq, Repr

/-- What the outside can present as one coded item: an EV11 event word (R80), or the bytes of a frame in wire
order (R71, R74; "the transport offers no framing/delimiter", R70, so any list of bytes is one). -/
inductive RawWord
  | event (w : BitVec 11)
  | frame (bytes : List Byte)
  deriving DecidableEq, Repr

end Sys2Proof
end

