-- ==== Sys2Proof/WellFormed.lean ====
section
/-! DEFINITION. Which instruction terms the opcode table admits. -/

namespace Sys2Proof

/-- A term is well-formed when its operands are ones its row of the opcode table admits.
The reserved rows spell no event (R82), so none of their terms is well-formed. -/
def Instr.wellFormed : Instr → Bool
  | .readTelemetry _ _ => true
  | .response _ _ _ _ _ _ _ => true
  | .idle => true
  | .rxByte _ => true
  | .rxByteSync => true
  | .rxByteSyncLoss d => d != Config.reqSync
  | .rxByteAddress _ => true
  | .rxByteOpcode _ => true
  | .rxByteCrcAccept _ => true
  | .rxByteCrcReject _ => true
  | .lineErr => true
  | .txPop => true
  | .txDone => true
  | .reset => true
  | .reservedKind6 _ => false
  | .reservedKind7 _ => false
  | .reservedData _ _ => false
  | .crc8Step _ _ => true
  | .crc8 _ => true
  | .enqueue _ => true
  | .dequeue => true
  | .isEmpty => true
  | .len => true
  | .isFull => true
  | .enqueueFrame r => r.length == Config.respLen
  | .buildResponse _ _ _ _ => true

end Sys2Proof
end

