-- ==== Sys2Proof/Decode.lean ====
section
/-! DEFINITION. The decoder, total on every coded item and refusing by name, and the encoder after it, both
written from the encoding tables of 30_encoding.md. -/

namespace Sys2Proof

/-- Why a coded item is no instruction. -/
inductive DecodeRefusal
  /-- Kind 110 (R82). -/
  | reservedKind6 (x : Byte)
  /-- Kind 111 (R82). -/
  | reservedKind7 (x : Byte)
  /-- A kind other than 001 with non-zero data (R82). -/
  | reservedData (kind : BitVec 3) (x : Byte)
  /-- Bytes that form neither a READ_TELEMETRY request nor a response frame (R79): none of these traps, the
  parser takes them byte by byte. -/
  | notATableFrame (bytes : List Byte)
  deriving DecidableEq, Repr

/-- `E[10:8]`, the kind of an event word (R80). -/
def eventKind (w : BitVec 11) : BitVec 3 := w.extractLsb' 8 3

/-- `E[7:0]`, the data of an event word (R80). -/
def eventData (w : BitVec 11) : Byte := w.extractLsb' 0 8

/-- `{kind, data}` (R80). -/
def eventWord (kind : BitVec 3) (data : Byte) : BitVec 11 := kind ++ data

/-- An event whose data must be 0x00 (R80); otherwise the word is reserved (R82). -/
def decodePlainEvent (i : Instr) (kind : BitVec 3) (data : Byte) : Except DecodeRefusal Instr :=
  if data = 0 then .ok i else .error (.reservedData kind data)

/-- The EV11 table of R80. The kind alone selects the event; RX_BYTE is not subdivided by its encoding (R81). -/
def decodeEvent (w : BitVec 11) : Except DecodeRefusal Instr :=
  let kind := eventKind w
  let data := eventData w
  if kind = 0 then decodePlainEvent .idle kind data
  else if kind = 1 then .ok (.rxByte data)
  else if kind = 2 then decodePlainEvent .lineErr kind data
  else if kind = 3 then decodePlainEvent .txPop kind data
  else if kind = 4 then decodePlainEvent .txDone kind data
  else if kind = 5 then decodePlainEvent .reset kind data
  else if kind = 6 then .error (.reservedKind6 data)
  else .error (.reservedKind7 data)

/-- REQ32 (R71) and RESP72 (R74), told apart by their length and their fixed bytes. -/
def decodeFrame (bytes : List Byte) : Except DecodeRefusal Instr :=
  match bytes with
  | [b0, b1, b2, b3] =>
    if b0 = Config.reqSync ∧ b2 = Config.reqOpcode then .ok (.readTelemetry b1 b3)
    else .error (.notATableFrame bytes)
  | [b0, b1, b2, b3, b4, b5, b6, b7, b8] =>
    if b0 = Config.respSync ∧ b2 = Config.respOpcode then .ok (.response b1 b3 b4 b5 b6 b7 b8)
    else .error (.notATableFrame bytes)
  | _ => .error (.notATableFrame bytes)

/-- The decoder: total, refusing by name. -/
def decode : RawWord → Except DecodeRefusal Instr
  | .event w => decodeEvent w
  | .frame bytes => decodeFrame bytes

/-- The encoder. The internal operations have no encoding (spec/opcode_table.json, format "internal"). -/
def encode : Instr → Option RawWord
  | .readTelemetry address crc => some (.frame [Config.reqSync, address, Config.reqOpcode, crc])
  | .response address temperature levelLo levelHi frequencyLo frequencyHi crc =>
    some (.frame [Config.respSync, address, Config.respOpcode, temperature, levelLo, levelHi, frequencyLo,
      frequencyHi, crc])
  | .idle => some (.event (eventWord 0 0))
  | .rxByte d => some (.event (eventWord 1 d))
  | .rxByteSync => some (.event (eventWord 1 Config.reqSync))
  | .rxByteSyncLoss d => some (.event (eventWord 1 d))
  | .rxByteAddress d => some (.event (eventWord 1 d))
  | .rxByteOpcode d => some (.event (eventWord 1 d))
  | .rxByteCrcAccept d => some (.event (eventWord 1 d))
  | .rxByteCrcReject d => some (.event (eventWord 1 d))
  | .lineErr => some (.event (eventWord 2 0))
  | .txPop => some (.event (eventWord 3 0))
  | .txDone => some (.event (eventWord 4 0))
  | .reset => some (.event (eventWord 5 0))
  | .reservedKind6 x => some (.event (eventWord 6 x))
  | .reservedKind7 x => some (.event (eventWord 7 x))
  | .reservedData kind x => some (.event (eventWord kind x))
  | .crc8Step _ _ => none
  | .crc8 _ => none
  | .enqueue _ => none
  | .dequeue => none
  | .isEmpty => none
  | .len => none
  | .isFull => none
  | .enqueueFrame _ => none
  | .buildResponse _ _ _ _ => none

/-- The instruction that a row's word decodes to. The six RX_BYTE sub-case rows share the words of RX_BYTE
("subdivided by the parser state at execution time, not by its encoding", R81). -/
def decodedAs : Instr → Instr
  | .rxByteSync => .rxByte Config.reqSync
  | .rxByteSyncLoss d => .rxByte d
  | .rxByteAddress d => .rxByte d
  | .rxByteOpcode d => .rxByte d
  | .rxByteCrcAccept d => .rxByte d
  | .rxByteCrcReject d => .rxByte d
  | .readTelemetry address crc => .readTelemetry address crc
  | .response address temperature levelLo levelHi frequencyLo frequencyHi crc =>
    .response address temperature levelLo levelHi frequencyLo frequencyHi crc
  | .idle => .idle
  | .rxByte d => .rxByte d
  | .lineErr => .lineErr
  | .txPop => .txPop
  | .txDone => .txDone
  | .reset => .reset
  | .reservedKind6 x => .reservedKind6 x
  | .reservedKind7 x => .reservedKind7 x
  | .reservedData kind x => .reservedData kind x
  | .crc8Step byte crc => .crc8Step byte crc
  | .crc8 bytes => .crc8 bytes
  | .enqueue b => .enqueue b
  | .dequeue => .dequeue
  | .isEmpty => .isEmpty
  | .len => .len
  | .isFull => .isFull
  | .enqueueFrame r => .enqueueFrame r
  | .buildResponse address temperature level frequency => .buildResponse address temperature level frequency

/-- The low `n` bytes of `w`, the most significant first: the W32 notation of R71 and its 9-byte counterpart put
the frame's first byte in the highest bits. -/
def bytesOfNat : Nat → Nat → List Byte
  | 0, _ => []
  | n + 1, w => BitVec.ofNat 8 (w >>> (8 * n)) :: bytesOfNat n w

/-- The coded item that the opcode table numbers as `w` on `nbits` bits: an EV11 word has 11 bits (16 in whole
bytes), a REQ32 frame 32, a RESP72 frame 72. -/
def rawOfTable (nbits w : Nat) : Option RawWord :=
  if nbits = 11 ∨ nbits = 16 then (if w < 2 ^ 11 then some (.event (BitVec.ofNat 11 w)) else none)
  else if nbits = 32 then (if w < 2 ^ 32 then some (.frame (bytesOfNat 4 w)) else none)
  else if nbits = 72 then (if w < 2 ^ 72 then some (.frame (bytesOfNat 9 w)) else none)
  else none

/-- The instruction the decoder reads from a table word; none where it refuses. -/
def decodeTableWord (nbits w : Nat) : Option Instr :=
  match rawOfTable nbits w with
  | some r => (decode r).toOption
  | none => none

end Sys2Proof
end

