-- ==== Sys2Proof/Machine/State.lean ====
section
/-! DEFINITION. The state of the engine as plain data (10_state.md), the inputs waiting at its ports, the
observation record of R33, and the state right after reset (R37, R260). -/

namespace Sys2Proof.Machine

/-- The parser states (R22). -/
inductive ParserState
  | waitHeader
  | waitAddress
  | waitOpcode
  | waitCrc
  deriving DecidableEq, Repr

/-- The classifications of R231, in code order, each with the information it records. They are labels of the
model's diagnostic record, not hardware outputs. -/
inductive Diag
  | syncLoss (b : Byte)
  | rejectLength (cntNew : BitVec 3)
  | rejectOpcode (opcode : Byte)
  | rejectCrc (acc received : Byte)
  | lineFault (st : ParserState) (cnt : BitVec 3)
  | txOverflow (b : Byte)
  | popEmpty
  deriving DecidableEq, Repr

/-- The value an operation returns (`return …` in the pseudocode of 40_crc8.md to 44_transport.md). -/
inductive Returned
  /-- No operation has returned a value since reset. -/
  | nothing
  /-- CRC8_STEP and CRC8: a checksum byte. -/
  | byte (b : Byte)
  /-- ENQUEUE: `ok`. -/
  | ok (v : Bool)
  /-- DEQUEUE and TX_POP: `(b, ok)`. -/
  | popped (b : Byte) (ok : Bool)
  /-- IS_EMPTY and IS_FULL: the flag. -/
  | flag (v : Bool)
  /-- LEN: the count. -/
  | count (n : Nat)
  /-- BUILD_RESPONSE: the bytes in wire order. -/
  | frame (bytes : List Byte)
  deriving DecidableEq, Repr

/-- The input ports of one clock cycle (R201), `clk` apart. `telemetry` gives the values driven on `tel_temp`,
`tel_level` and `tel_freq` from this cycle on; none leaves them as they were. -/
structure Ports where
  rst : Bool := false
  rxValid : Bool := false
  rxData : Byte := 0
  rxErr : Bool := false
  txPop : Bool := false
  txDone : Bool := false
  telemetry : Option Telemetry := none
  deriving DecidableEq, Repr

/-- One item waiting at the engine's inputs (log entry 7). -/
inductive Input
  /-- A coded item: an event word in a clock cycle of its own, or a frame's bytes in successive cycles. -/
  | word (r : RawWord)
  /-- One clock cycle given by its ports; several events may share it (R206; log entry 12). -/
  | cycle (p : Ports)
  /-- The `tel` directive of R83: the telemetry inputs for every later accept (none: undriven, so every accept
  takes a free draw). It takes no clock cycle. -/
  | tel (t : Option Telemetry)
  deriving DecidableEq, Repr

/-- The queue's storage array q_mem as (index, byte) pairs: indices strictly rising, no entry 0x00, which is what
an unlisted index reads as (log entry 2). -/
abbrev Memory := List Host.Cell

/-- Everything the spec gives the engine (10_state.md), with the model's own fields after it. -/
structure State where
  /-- `st` (R22). -/
  st : ParserState
  /-- `f_hdr` (R23). -/
  fHdr : Byte
  /-- `f_addr` (R23). -/
  fAddr : Byte
  /-- `f_opc` (R23). -/
  fOpc : Byte
  /-- `f_crc` (R23). -/
  fCrc : Byte
  /-- `crc_acc` (R24). -/
  crcAcc : Byte
  /-- `cnt` (R25), 3 bits. -/
  cnt : BitVec 3
  /-- `q_mem[0..TXQ_CAP−1]` (R26). -/
  qMem : Memory
  /-- `q_head` (R26). -/
  qHead : Nat
  /-- `q_tail` (R26). -/
  qTail : Nat
  /-- `q_count` (R26). -/
  qCount : Nat
  /-- `evt_valid` (R32). -/
  evtValid : Bool
  /-- `evt_addr` (R32). -/
  evtAddr : Byte
  /-- `evt_trace` (R33 (a)), oldest first. -/
  evtTrace : List Byte
  /-- `tx_trace` (R33 (b)), oldest first. -/
  txTrace : List Byte
  /-- `diag` (R33 (c)), oldest first. -/
  diag : List Diag
  /-- TXQ_CAP, fixed at construction (R7, R126): no event changes it (log entry 1). -/
  txqCap : Nat
  /-- MODEL'S OWN: the bytes successfully enqueued since reset, oldest first, the list that R60 speaks of (log entry 4). -/
  enqTrace : List Byte
  /-- MODEL'S OWN: the value returned by the latest operation that returns one (log entry 5). -/
  ret : Returned
  /-- MODEL'S OWN: what is driven on the telemetry inputs (R214); none: nothing fixes them (log entry 3). -/
  tel : Option Telemetry
  /-- MODEL'S OWN: how many free telemetry draws have been taken (log entry 3). -/
  telDraws : Nat
  /-- MODEL'S OWN: the items waiting at the inputs, the next first (log entry 7). -/
  inputs : List Input
  deriving DecidableEq, Repr

/-- Why the machine can stop with a fault. -/
inductive Fault
  /-- Raised by an access to `q_mem` at an index outside 0..TXQ_CAP−1, an entry that does not exist (R51). Safe:
  q_head and q_tail never leave that range in a reachable state (R26, R27), and the machine stops rather than
  invent an entry (log entry 9). -/
  | noQueueEntry (index : Nat)
  deriving DecidableEq, Repr

/-- Why an input has no transition (R82, R126; log entry 16). -/
inductive Refusal
  /-- Raised by an arm of exec whose instruction has no meaning yet. Safe: nothing runs. -/
  | notModelled (mnemonic : String)
  /-- Raised by an event word of kind 110 (R82). Safe: no port combination produces it. -/
  | reservedKind6 (x : Byte)
  /-- Raised by an event word of kind 111 (R82). Safe: no port combination produces it. -/
  | reservedKind7 (x : Byte)
  /-- Raised by an event word with non-zero data and a kind other than 001 (R82). Safe: no port combination
  produces it. -/
  | reservedData (kind : BitVec 3) (x : Byte)
  /-- Raised by a step of a configuration with TXQ_CAP < 9, which "is not a configuration of this hardware, and a
  model refuses it" (R126). Safe: nothing runs. -/
  | capacityBelowOneFrame (cap : Nat)
  deriving DecidableEq, Repr

/-- The machine right after reset (R37, R260), at the reference capacity, with nothing waiting at its inputs.
`q_mem` is "unspecified, any value" there: nothing is listed (log entries 2 and 8). -/
def State.reset : State where
  st := .waitHeader
  fHdr := 0
  fAddr := 0
  fOpc := 0
  fCrc := 0
  crcAcc := 0
  cnt := 0
  qMem := []
  qHead := 0
  qTail := 0
  qCount := 0
  evtValid := false
  evtAddr := 0
  evtTrace := []
  txTrace := []
  diag := []
  txqCap := Config.referenceCapacity
  enqTrace := []
  ret := .nothing
  tel := none
  telDraws := 0
  inputs := []

end Sys2Proof.Machine
end

