-- ==== Sys2Proof/Machine/Operands.lean ====
section
/-! DEFINITION. Operand forms: the fields of the two frames (R72, R75), the signed byte (R9), the encodings of the
parser state (R22) and of the classifications (R231), and the checksum every frame carries (R100, R102). -/

namespace Sys2Proof.Machine

/-- `v[7:0]` of a 16-bit field (R75). -/
def lowByte (v : U16) : Byte := v.extractLsb' 0 8

/-- `v[15:8]` of a 16-bit field (R75). -/
def highByte (v : U16) : Byte := v.extractLsb' 8 8

/-- `u16(lo, hi)` (R9). -/
def u16 (lo hi : Byte) : U16 := (hi.setWidth 16 <<< 8) ||| lo.setWidth 16

/-- The byte `t mod 256` that carries an int8 (R9; log entry 17). -/
def int8Pattern (t : Int) : Byte := BitVec.ofInt 8 t

/-- `sext_8(b)` read as a signed integer (R9): b − 256 when b[7] = 1, and b otherwise. -/
def int8Value (b : Byte) : Int := if b.getLsbD 7 then (b.toNat : Int) - 256 else b.toNat

/-- The W32 notation `{b0, b1, b2, b3}` of a request (R71). -/
def requestWord (b0 b1 b2 b3 : Byte) : BitVec 32 := b0 ++ b1 ++ b2 ++ b3

/-- The 2-bit encoding of `st` (R22, D8). -/
def ParserState.code : ParserState → BitVec 2
  | .waitHeader => 0b00
  | .waitAddress => 0b01
  | .waitOpcode => 0b10
  | .waitCrc => 0b11

/-- The classification code of R231. -/
def Diag.code : Diag → Nat
  | .syncLoss _ => 1
  | .rejectLength _ => 2
  | .rejectOpcode _ => 3
  | .rejectCrc _ _ => 4
  | .lineFault _ _ => 5
  | .txOverflow _ => 6
  | .popEmpty => 7

/-- CRC8_STEP (R100): the XOR of the constants that the set bits of `byte ^ crc` select. -/
def crc8Step (byte crc : Byte) : Byte :=
  let i := byte ^^^ crc
  (List.range 8).foldl (fun out k => if i.getLsbD k then out ^^^ Config.crcK.getD k 0 else out) 0x00

/-- CRC8 of a byte list (R102). -/
def crc8 (bytes : List Byte) : Byte := bytes.foldl (fun c b => crc8Step b c) Config.crcSeed

/-- The first eight bytes of a response, header to frequency_hi (R74, R75). -/
def responseBody (address temperature : Byte) (level frequency : U16) : List Byte :=
  [Config.respSync, address, Config.respOpcode, temperature, lowByte level, highByte level, lowByte frequency,
    highByte frequency]

/-- BUILD_RESPONSE (R150): the body, then its checksum as the ninth byte. -/
def buildResponse (address temperature : Byte) (level frequency : U16) : List Byte :=
  let body := responseBody address temperature level frequency
  body ++ [crc8 body]

end Sys2Proof.Machine
end

