-- ==== Sys2Proof/Machine/Ops.lean ====
section
/-! DEFINITION. The named operations over the queue's storage and the registers that the meanings share. -/

namespace Sys2Proof.Machine

/-- What an operation answers: a value, or the reason it stopped. -/
abbrev Result (α : Type) := Host.Outcome α Fault Refusal

/-- Runs `f` on the value of `o`, and hands a stop through. -/
def andThen {α β : Type} (o : Result α) (f : α → Result β) : Result β :=
  match o with
  | .next a => f a
  | .fault e => .fault e
  | .refused r => .refused r

/-! ### The storage array q_mem (R50–R52) -/

/-- The canonical form: indices strictly rising, no entry equal to what an unlisted index reads as. -/
abbrev Memory.wf (m : Memory) : Prop :=
  m.Pairwise (fun c d => c.1 < d.1) ∧ ∀ c ∈ m, c.2 ≠ 0

/-- The byte at an index; an unlisted index reads 0x00 (log entry 2; I3: "a model may also zero them"). -/
def Memory.read : Memory → Nat → Byte
  | [], _ => 0
  | (k, v) :: m, i => if k = i then v else Memory.read m i

/-- The array with byte `b` at index `i`. -/
def Memory.write : Memory → Nat → Byte → Memory
  | [], i, b => if b = 0 then [] else [(i, b)]
  | (k, v) :: m, i, b =>
    if i < k then (if b = 0 then (k, v) :: m else (i, b) :: (k, v) :: m)
    else if i = k then (if b = 0 then m else (i, b) :: m)
    else (k, v) :: Memory.write m i b

/-- `MemRead(i, 1)` (R10, R52). -/
def memRead (i : Nat) (s : State) : Result Byte :=
  if i < s.txqCap then .next (s.qMem.read i) else .fault (.noQueueEntry i)

/-- `MemWrite(i, 1, b)` (R10, R52). -/
def memWrite (i : Nat) (b : Byte) (s : State) : Result State :=
  if i < s.txqCap then .next { s with qMem := s.qMem.write i b } else .fault (.noQueueEntry i)

/-- `(x + 1) mod N` (R9, R51). -/
def succMod (n x : Nat) : Nat := (x + 1) % n

/-- The index at which the k-th byte from the oldest stands (R27 (c)). -/
def queueIndex (s : State) (k : Nat) : Nat := (s.qHead + k) % s.txqCap

/-- The logical content of the queue, oldest first (R27 (c)). -/
def State.content (s : State) : List Byte := (List.range s.qCount).map fun k => s.qMem.read (queueIndex s k)

/-- The free space `TXQ_CAP − q_count` (R266). -/
def State.free (s : State) : Nat := s.txqCap - s.qCount

/-! ### Register updates -/

/-- `raise X(info)` (R10): records a classification and changes nothing else. -/
def State.raise (s : State) (d : Diag) : State := { s with diag := s.diag ++ [d] }

/-- The value an operation returns. -/
def State.returning (s : State) (v : Returned) : State := { s with ret := v }

/-- The default of a clock edge: `evt_valid <- 0` (R32, R205). -/
def State.clearPulse (s : State) : State := { s with evtValid := false }

/-- `emit_event(addr)` with the event outputs (R10, R177, R205). -/
def State.emitEvent (s : State) (addr : Byte) : State :=
  { s with evtValid := true, evtAddr := addr, evtTrace := s.evtTrace ++ [addr] }

/-- The forced return to the initial parsing state, `st = WaitHeader` and `cnt = 0`: the one shared form of what a
frame end and a line fault do to the parser (R38, R240). It saves nothing and returns to nothing. -/
def State.toWaitHeader (s : State) : State := { s with st := .waitHeader, cnt := 0 }

/-- R172: the header is stored and the checksum seeded. -/
def State.takeHeader (s : State) (b : Byte) : State :=
  { s with fHdr := b, crcAcc := crc8Step b 0x00, cnt := 1, st := .waitAddress }

/-- R174: the address is stored and folded. -/
def State.takeAddress (s : State) (b : Byte) : State :=
  { s with fAddr := b, crcAcc := crc8Step b s.crcAcc, cnt := s.cnt + 1, st := .waitOpcode }

/-- R175: the opcode is stored and folded. -/
def State.takeOpcode (s : State) (b : Byte) : State :=
  { s with fOpc := b, crcAcc := crc8Step b s.crcAcc, cnt := s.cnt + 1, st := .waitCrc }

/-- R176: the received checksum is stored. -/
def State.takeCrc (s : State) (b : Byte) : State := { s with fCrc := b }

/-- The register part of a successful enqueue (R121). -/
def State.advanceTail (s : State) (b : Byte) : State :=
  { s with qTail := succMod s.txqCap s.qTail, qCount := s.qCount + 1, enqTrace := s.enqTrace ++ [b] }

/-- The register part of a successful dequeue (R122). -/
def State.advanceHead (s : State) : State :=
  { s with qHead := succMod s.txqCap s.qHead, qCount := s.qCount - 1 }

/-- `tx_trace <- tx_trace ++ [b]` (R202). -/
def State.recordTx (s : State) (b : Byte) : State := { s with txTrace := s.txTrace ++ [b] }

/-- The items left at the inputs. -/
def State.setInputs (s : State) (rest : List Input) : State := { s with inputs := rest }

/-- What is driven on the telemetry inputs from now on (R83, R214). -/
def State.setTel (s : State) (t : Option Telemetry) : State := { s with tel := t }

/-- The telemetry that an accept in this state samples (R214): what is driven, else a free draw (D7). -/
def State.telemetry (s : State) : Telemetry :=
  match s.tel with
  | some t => t
  | none => Config.telemetryDraw s.telDraws

/-- An accept that samples undriven inputs uses up one free draw. -/
def State.drawTelemetry (s : State) : State :=
  { s with telDraws := match s.tel with
      | some _ => s.telDraws
      | none => s.telDraws + 1 }

/-- RESET (R260): every register at its reset value, the observation record empty; q_mem is not written, and the
inputs, the capacity and the environment's draws are not state that a reset reaches. -/
def State.blockReset (s : State) : State :=
  { s with
    st := .waitHeader, cnt := 0, crcAcc := 0, fHdr := 0, fAddr := 0, fOpc := 0, fCrc := 0
    qHead := 0, qTail := 0, qCount := 0
    evtValid := false, evtAddr := 0
    evtTrace := [], txTrace := [], diag := [], enqTrace := [], ret := .nothing }

/-! ### Queue operations (41_txqueue.md) -/

/-- ENQUEUE (R121), answering the state and `ok`. -/
def enqueue (b : Byte) (s : State) : Result (State × Bool) :=
  if s.qCount < s.txqCap then
    andThen (memWrite s.qTail b s) fun s' => .next (s'.advanceTail b, true)
  else .next (s.raise (.txOverflow b), false)

/-- DEQUEUE (R122), answering the state and `(b, ok)`; an empty queue gives (0x00, 0) (D12). -/
def dequeue (s : State) : Result (State × Byte × Bool) :=
  if 0 < s.qCount then
    andThen (memRead s.qHead s) fun b => .next (s.advanceHead, b, true)
  else .next (s.raise .popEmpty, 0x00, false)

/-- ENQUEUE_FRAME (R131): every byte in order, the return values discarded. -/
def enqueueAll : List Byte → State → Result State
  | [], s => .next s
  | b :: bytes, s => andThen (enqueue b s) fun r => enqueueAll bytes r.1

end Sys2Proof.Machine
end

