-- ==== Sys2Proof/Machine/Flags.lean ====
section
/-! DEFINITION. Every flag the spec computes: the queue's status flags (R29), the output ports (R201, R213), and
the transient validation Booleans (R30). -/

namespace Sys2Proof.Machine

/-- `q_empty`, the observer `is_empty()` (R29, R123). -/
def State.qEmpty (s : State) : Bool := s.qCount == 0

/-- `q_full`, the observer `is_full()` (R29, R125). -/
def State.qFull (s : State) : Bool := s.qCount == s.txqCap

/-- `q_len`, the observer `len()` (R29, R124). -/
def State.qLen (s : State) : Nat := s.qCount

/-- `tx_valid`: a byte is available (R29, R203). -/
def State.txValid (s : State) : Bool := !s.qEmpty

/-- `tx_data`: the head byte, or 0x00 while the queue is empty (R201, D12). -/
def State.txData (s : State) : Byte := if s.txValid then s.qMem.read s.qHead else 0x00

/-- The output ports (R201). -/
structure OutputPorts where
  txValid : Bool
  txData : Byte
  qLen : Nat
  qEmpty : Bool
  qFull : Bool
  evtValid : Bool
  evtAddr : Byte
  deriving DecidableEq, Repr

/-- The output ports in a state: functions of registered state alone (R201). -/
def State.outputs (s : State) : OutputPorts where
  txValid := s.txValid
  txData := s.txData
  qLen := s.qLen
  qEmpty := s.qEmpty
  qFull := s.qFull
  evtValid := s.evtValid
  evtAddr := s.evtAddr

/-- `cnt_new` of the WaitCrc step (R176). -/
def State.cntNew (s : State) : BitVec 3 := s.cnt + 1

/-- `ok_len` (R30, R176). -/
def State.okLen (s : State) : Bool := s.cntNew == Config.reqLen

/-- `ok_opc` (R30, R176). -/
def State.okOpc (s : State) : Bool := s.fOpc == Config.reqOpcode

/-- `ok_crc` (R30, R176): the accumulator against the received byte. -/
def State.okCrc (s : State) (b : Byte) : Bool := s.crcAcc == b

/-- The validation of R176. -/
def State.frameOk (s : State) (b : Byte) : Bool := s.okLen && s.okOpc && s.okCrc b

/-- The classification of a failed validation: the first failing conjunct, length, then opcode, then CRC
(R178, R237). -/
def State.rejection (s : State) (b : Byte) : Diag :=
  if s.okLen then (if s.okOpc then .rejectCrc s.crcAcc b else .rejectOpcode s.fOpc)
  else .rejectLength s.cntNew

end Sys2Proof.Machine
end

