-- ==== Sys2Proof/Machine/Receive.lean ====
section
/-! DEFINITION. The receive state machine (43_rxfsm.md). The rules R172–R179 are operations on the state inside a
clock cycle; each event's meaning is its rule in a cycle of its own, at whose edge `evt_valid` falls unless the
rule accepts (R32, R206). -/

namespace Sys2Proof.Machine

/-! ### The rules -/

/-- R177: build and enqueue the response, emit the event, return to WaitHeader. -/
def ruleAccept (s : State) : Result State :=
  let t := s.telemetry
  andThen (enqueueAll (buildResponse s.fAddr t.temperature t.level t.frequency) s.drawTelemetry) fun s' =>
    .next (s'.emitEvent s'.fAddr).toWaitHeader

/-- R178: classify and return to WaitHeader. -/
def ruleReject (b : Byte) (s : State) : State := (s.raise (s.rejection b)).toWaitHeader

/-- R173: the byte is discarded. -/
def ruleSyncLoss (b : Byte) (s : State) : State := s.raise (.syncLoss b)

/-- R176: store, validate, accept or reject. -/
def ruleCrc (b : Byte) (s : State) : Result State :=
  let s' := s.takeCrc b
  if s'.frameOk b then ruleAccept s' else .next (ruleReject b s')

/-- R179: the line fault's forced return to WaitHeader. -/
def ruleLineErr (s : State) : State := (s.raise (.lineFault s.st s.cnt)).toWaitHeader

/-- R171: dispatch on the parser state. -/
def rxDispatch (b : Byte) (s : State) : Result State :=
  match s.st with
  | .waitHeader => if b = Config.reqSync then .next (s.takeHeader b) else .next (ruleSyncLoss b s)
  | .waitAddress => .next (s.takeAddress b)
  | .waitOpcode => .next (s.takeOpcode b)
  | .waitCrc => ruleCrc b s

/-! ### The events -/

/-- RX_BYTE (R171) in a clock cycle of its own. -/
def execRxByte (d : Byte) (s : State) : Result State := rxDispatch d s.clearPulse

/-- LINE_ERR (R179) in a clock cycle of its own. -/
def execLineErr (s : State) : Result State := .next (ruleLineErr s.clearPulse)

/-! ### The rows of RX_BYTE

A row applies its own rule where the state condition of its opcode-table row holds. Elsewhere its word is another
row's, and the word does what RX_BYTE does with it (R81; log entry 6). -/

/-- RX_BYTE.SYNC (R172). -/
def execRxByteSync (s : State) : Result State :=
  if s.st = .waitHeader then .next (s.clearPulse.takeHeader Config.reqSync) else execRxByte Config.reqSync s

/-- RX_BYTE.SYNC_LOSS (R173). -/
def execRxByteSyncLoss (d : Byte) (s : State) : Result State :=
  if s.st = .waitHeader ∧ d ≠ Config.reqSync then .next (ruleSyncLoss d s.clearPulse) else execRxByte d s

/-- RX_BYTE.ADDRESS (R174). -/
def execRxByteAddress (d : Byte) (s : State) : Result State :=
  if s.st = .waitAddress then .next (s.clearPulse.takeAddress d) else execRxByte d s

/-- RX_BYTE.OPCODE (R175). -/
def execRxByteOpcode (d : Byte) (s : State) : Result State :=
  if s.st = .waitOpcode then .next (s.clearPulse.takeOpcode d) else execRxByte d s

/-- RX_BYTE.CRC_ACCEPT (R176, R177). -/
def execRxByteCrcAccept (d : Byte) (s : State) : Result State :=
  if s.st = .waitCrc ∧ s.frameOk d then ruleAccept (s.clearPulse.takeCrc d) else execRxByte d s

/-- RX_BYTE.CRC_REJECT (R176, R178). -/
def execRxByteCrcReject (d : Byte) (s : State) : Result State :=
  if s.st = .waitCrc ∧ ¬ s.frameOk d then .next (ruleReject d (s.clearPulse.takeCrc d)) else execRxByte d s

/-! ### Frames on the wire -/

/-- Bytes received one a clock cycle, in the order delivered (R59). -/
def receiveBytes : List Byte → State → Result State
  | [], s => .next s
  | b :: bytes, s => andThen (execRxByte b s) (receiveBytes bytes)

/-- READ_TELEMETRY: the request frame `[0x31, address, 0x06, crc]` received byte by byte (R71, R84). From WaitHeader
it is accepted exactly when its checksum is right (R78), and rejected by R178 otherwise (log entry 10). -/
def execReadTelemetry (address crc : Byte) (s : State) : Result State :=
  receiveBytes [Config.reqSync, address, Config.reqOpcode, crc] s

end Sys2Proof.Machine
end

