-- ==== Sys2Proof/Machine/Codec.lean ====
section
/-! DEFINITION. The frame codec (42_codec.md): the meaning of BUILD_RESPONSE, the controller's informative decode
(R157), and a response frame looped back into the receiver (R85). -/

namespace Sys2Proof.Machine

/-- BUILD_RESPONSE (R150): "no side effects beyond computing the bytes"; they are the value returned. -/
def execBuildResponse (address temperature : Byte) (level frequency : U16) (s : State) : Result State :=
  .next (s.returning (.frame (buildResponse address temperature level frequency)))

/-- RESPONSE: the block decodes no response; its nine bytes presented to the receiver are "treated as bytes like any
other" (R85; log entry 10). -/
def execResponse (address temperature levelLo levelHi frequencyLo frequencyHi crc : Byte) (s : State) :
    Result State :=
  receiveBytes [Config.respSync, address, Config.respOpcode, temperature, levelLo, levelHi, frequencyLo,
    frequencyHi, crc] s

/-- What a controller recovers from a response (R75, R157): address, temperature, level, frequency. -/
structure Reading where
  address : Byte
  temperature : Int
  level : U16
  frequency : U16
  deriving DecidableEq, Repr

/-- The controller's decode (R157): nine bytes, the last the checksum of the first eight. -/
def controllerDecode : List Byte → Option Reading
  | [r0, r1, r2, r3, r4, r5, r6, r7, r8] =>
    if crc8 [r0, r1, r2, r3, r4, r5, r6, r7] = r8 then
      some { address := r1, temperature := int8Value r3, level := u16 r4 r5, frequency := u16 r6 r7 }
    else none
  | _ => none

end Sys2Proof.Machine
end

