-- ==== Sys2Proof/Machine/Queue.lean ====
section
/-! DEFINITION. The transmit queue's operations as instructions (41_txqueue.md). Each takes its effect alone,
outside any clock cycle, and the value it returns is the state's `ret` (log entries 5 and 11). -/

namespace Sys2Proof.Machine

/-- ENQUEUE (R121). -/
def execEnqueue (b : Byte) (s : State) : Result State :=
  andThen (enqueue b s) fun r => .next (r.1.returning (.ok r.2))

/-- DEQUEUE (R122). -/
def execDequeue (s : State) : Result State :=
  andThen (dequeue s) fun r => .next (r.1.returning (.popped r.2.1 r.2.2))

/-- IS_EMPTY (R123). -/
def execIsEmpty (s : State) : Result State := .next (s.returning (.flag s.qEmpty))

/-- LEN (R124). -/
def execLen (s : State) : Result State := .next (s.returning (.count s.qLen))

/-- IS_FULL (R125). -/
def execIsFull (s : State) : Result State := .next (s.returning (.flag s.qFull))

/-- ENQUEUE_FRAME (R131): "The return values are discarded". -/
def execEnqueueFrame (r : List Byte) (s : State) : Result State := enqueueAll r s

end Sys2Proof.Machine
end

