-- ==== Sys2Proof/Machine/Reserved.lean ====
section
/-! DEFINITION. The reserved event words (R82): "A model refuses it by name at decode: it has no state transition". -/

namespace Sys2Proof.Machine

/-- RESERVED.KIND6 (R82). -/
def execReservedKind6 (x : Byte) (_ : State) : Result State := .refused (.reservedKind6 x)

/-- RESERVED.KIND7 (R82). -/
def execReservedKind7 (x : Byte) (_ : State) : Result State := .refused (.reservedKind7 x)

/-- RESERVED.DATA (R82). -/
def execReservedData (kind : BitVec 3) (x : Byte) (_ : State) : Result State := .refused (.reservedData kind x)

end Sys2Proof.Machine
end

