-- ==== Sys2Proof/Machine/Transport.lean ====
section
/-! DEFINITION. The transport boundary (44_transport.md) and the block reset (70_reset_and_hazards.md): TX_POP,
TX_DONE, IDLE, RESET, and the clock cycle in which several inputs may be asserted (R206). -/

namespace Sys2Proof.Machine

/-- R202: dequeue, and record a byte handed to the transport. -/
def ruleTxPop (s : State) : Result State :=
  andThen (dequeue s) fun r =>
    .next ((if r.2.2 then r.1.recordTx r.2.1 else r.1).returning (.popped r.2.1 r.2.2))

/-- R204: "no register is written". -/
def ruleTxDone (s : State) : State := s

/-- TX_POP (R202) in a clock cycle of its own. -/
def execTxPop (s : State) : Result State := ruleTxPop s.clearPulse

/-- TX_DONE (R204) in a clock cycle of its own. -/
def execTxDone (s : State) : Result State := .next (ruleTxDone s.clearPulse)

/-- IDLE (R212): no register changes, except that `evt_valid` becomes 0. -/
def execIdle (s : State) : Result State := .next s.clearPulse

/-- RESET (R260). -/
def execReset (s : State) : Result State := .next s.blockReset

/-- The telemetry inputs that a cycle drives; a cycle that drives none leaves them as they were (log entry 12). -/
def State.present (s : State) (t : Option Telemetry) : State :=
  match t with
  | some _ => s.setTel t
  | none => s

/-- The receive side of a cycle (R206, R208): a line fault overrides and drops the byte presented with it. -/
def cycleReceive (p : Ports) (s : State) : Result State :=
  if p.rxErr then .next (ruleLineErr s) else if p.rxValid then rxDispatch p.rxData s else .next s

/-- One clock cycle (R206): reset overrides everything; then the pop, which sees the state before this edge; then
the line fault or the byte; then TX_DONE; `evt_valid` is 1 after it exactly when the cycle accepted. -/
def clockCycle (p : Ports) (s : State) : Result State :=
  if p.rst then .next s.blockReset
  else
    let s0 := (s.present p.telemetry).clearPulse
    andThen (if p.txPop then ruleTxPop s0 else .next s0) fun s1 =>
      andThen (cycleReceive p s1) fun s2 =>
        .next (if p.txDone then ruleTxDone s2 else s2)

end Sys2Proof.Machine
end

