-- ==== Sys2Proof/Machine/Dispatch.lean ====
section
/-! DEFINITION. One arm per constructor of Instr, each one direct call of that instruction's meaning. -/

namespace Sys2Proof.Machine

def exec (i : Instr) (s : State) : Host.Outcome State Fault Refusal :=
  match i with
  | .readTelemetry address crc => Sys2Proof.Machine.execReadTelemetry address crc s
  | .response a t l h f g c => Sys2Proof.Machine.execResponse a t l h f g c s
  | .idle => Sys2Proof.Machine.execIdle s
  | .rxByte d => Sys2Proof.Machine.execRxByte d s
  | .rxByteSync => Sys2Proof.Machine.execRxByteSync s
  | .rxByteSyncLoss d => Sys2Proof.Machine.execRxByteSyncLoss d s
  | .rxByteAddress d => Sys2Proof.Machine.execRxByteAddress d s
  | .rxByteOpcode d => Sys2Proof.Machine.execRxByteOpcode d s
  | .rxByteCrcAccept d => Sys2Proof.Machine.execRxByteCrcAccept d s
  | .rxByteCrcReject d => Sys2Proof.Machine.execRxByteCrcReject d s
  | .lineErr => Sys2Proof.Machine.execLineErr s
  | .txPop => Sys2Proof.Machine.execTxPop s
  | .txDone => Sys2Proof.Machine.execTxDone s
  | .reset => Sys2Proof.Machine.execReset s
  | .reservedKind6 x => Sys2Proof.Machine.execReservedKind6 x s
  | .reservedKind7 x => Sys2Proof.Machine.execReservedKind7 x s
  | .reservedData k x => Sys2Proof.Machine.execReservedData k x s
  | .crc8Step byte crc => Sys2Proof.Machine.execCrc8Step byte crc s
  | .crc8 bytes => Sys2Proof.Machine.execCrc8 bytes s
  | .enqueue b => Sys2Proof.Machine.execEnqueue b s
  | .dequeue => Sys2Proof.Machine.execDequeue s
  | .isEmpty => Sys2Proof.Machine.execIsEmpty s
  | .len => Sys2Proof.Machine.execLen s
  | .isFull => Sys2Proof.Machine.execIsFull s
  | .enqueueFrame r => Sys2Proof.Machine.execEnqueueFrame r s
  | .buildResponse a t l f => Sys2Proof.Machine.execBuildResponse a t l f s

end Sys2Proof.Machine
end

