-- ==== Sys2Proof/Machine/Fetch.lean ====
section
/-! DEFINITION. How coded items stand at the inputs, and what an item that is no instruction does. -/

namespace Sys2Proof.Machine

/-- The state with a table word in front of what waits at the inputs; a word the table has no format for is no item. -/
def placeWord (s : State) (nbits w : Nat) : State :=
  match rawOfTable nbits w with
  | some r => s.setInputs (.word r :: s.inputs)
  | none => s

/-- A reserved event word is refused by name (R82). Bytes that form no frame of the table do not trap: they are
received one by one, each taken or discarded by the parser (R79; log entry 13). -/
def undecoded : DecodeRefusal → State → Result State
  | .reservedKind6 x, _ => .refused (.reservedKind6 x)
  | .reservedKind7 x, _ => .refused (.reservedKind7 x)
  | .reservedData kind x, _ => .refused (.reservedData kind x)
  | .notATableFrame bytes, s => receiveBytes bytes s

end Sys2Proof.Machine
end

