-- ==== Sys2Proof/Machine/Step.lean ====
section
/-! DEFINITION. One step: the next item at the inputs, run. -/

namespace Sys2Proof.Machine

/-- A coded item: the decoded instruction, or what an item that is no instruction does. -/
def runWord (r : RawWord) (s : State) : Host.Outcome State Fault Refusal :=
  match decode r with
  | .ok i => exec i s
  | .error e => undecoded e s

/-- One step takes the next item at the inputs; with none waiting, the clock cycle is IDLE (R212, R246). A
configuration with TXQ_CAP below one frame is refused (R126). -/
def step (s : State) : Host.Outcome State Fault Refusal :=
  if s.txqCap < Config.minCapacity then .refused (.capacityBelowOneFrame s.txqCap)
  else
    match s.inputs with
    | [] => exec .idle s
    | .word r :: rest => runWord r (s.setInputs rest)
    | .cycle p :: rest => clockCycle p (s.setInputs rest)
    | .tel t :: rest => .next ((s.setInputs rest).setTel t)

/-- The table word as the next item at the inputs, before what waits there. -/
def State.withFetchWord (s : State) (nbits w : Nat) : State := placeWord s nbits w

end Sys2Proof.Machine
end

