-- ==== Sys2Proof/Machine/Program.lean ====
section
/-! DEFINITION. The event-program lines of R83 and the pseudo-instructions of R84, as the inputs they stand for. -/

namespace Sys2Proof.Machine

/-- One event inside `cycle { … }` (R83). -/
inductive CycleEvent
  | rx (b : Byte)
  | lerr
  | pop
  | txdone
  | reset
  deriving DecidableEq, Repr

/-- The port that an event asserts (R201). -/
def CycleEvent.assert (p : Ports) : CycleEvent → Ports
  | .rx b => { p with rxValid := true, rxData := b }
  | .lerr => { p with rxErr := true }
  | .pop => { p with txPop := true }
  | .txdone => { p with txDone := true }
  | .reset => { p with rst := true }

/-- A line of an event program (R83, R84). -/
inductive ProgramLine
  | rx (b : Byte)
  | lerr
  | pop
  | txdone
  | reset
  | idle
  | tel (t : Int) (l f : U16)
  | cycle (events : List CycleEvent)
  | frame (a : Byte)
  | badcrc (a : Byte)
  | rxs (bytes : List Byte)
  | popTimes (n : Nat)
  | drain
  deriving DecidableEq, Repr

/-- The word of a one-event line (R83). -/
def eventInput (kind : BitVec 3) (data : Byte) : Input := .word (.event (eventWord kind data))

/-- `rx b0; rx b1; …` -/
def rxInputs (bytes : List Byte) : List Input := bytes.map (eventInput 1)

/-- The checksum of a request for an address (R73). -/
def requestCrc (a : Byte) : Byte := crc8 [Config.reqSync, a, Config.reqOpcode]

/-- The expansion of a line (R83, R84). `drain` is pops "repeated until a pop returns empty, that pop included", so
it depends on how many bytes the queue holds when the line is reached (log entry 15). -/
def ProgramLine.expand (queued : Nat) : ProgramLine → List Input
  | .rx b => [eventInput 1 b]
  | .lerr => [eventInput 2 0]
  | .pop => [eventInput 3 0]
  | .txdone => [eventInput 4 0]
  | .reset => [eventInput 5 0]
  | .idle => [eventInput 0 0]
  | .tel t l f => [.tel (some { temperature := int8Pattern t, level := l, frequency := f })]
  | .cycle events => [.cycle (events.foldl CycleEvent.assert {})]
  | .frame a => rxInputs [Config.reqSync, a, Config.reqOpcode, requestCrc a]
  | .badcrc a => rxInputs [Config.reqSync, a, Config.reqOpcode, requestCrc a ^^^ 0xFF]
  | .rxs bytes => rxInputs bytes
  | .popTimes n => List.replicate n (eventInput 3 0)
  | .drain => List.replicate (queued + 1) (eventInput 3 0)

end Sys2Proof.Machine
end

