-- ==== Sys2Proof/Safety.lean ====
section
/-! DEFINITION. What holds of every state of a run that began with RESET: the queue invariants (R27), the parser
invariants (R23, R35, R36), and what the observation record says (R32, R60, R186). -/

namespace Sys2Proof.Machine

/-- The queue invariants of R27 on a legal capacity, with the storage in its canonical form inside 0..TXQ_CAP−1. -/
structure QueueInv (s : State) : Prop where
  capacity : Config.minCapacity ≤ s.txqCap
  headInRange : s.qHead < s.txqCap
  countInRange : s.qCount ≤ s.txqCap
  tailPlace : s.qTail = (s.qHead + s.qCount) % s.txqCap
  memoryWf : s.qMem.wf
  memoryInRange : ∀ c ∈ s.qMem, c.1 < s.txqCap

/-- `cnt` as R35 links it to `st`. -/
def ParserState.count : ParserState → BitVec 3
  | .waitHeader => 0
  | .waitAddress => 1
  | .waitOpcode => 2
  | .waitCrc => 3

/-- The parser invariants: R35, R23 (`f_hdr` holds REQ_SYNC once a frame has started) and R36. -/
structure ParserInv (s : State) : Prop where
  countOfState : s.cnt = s.st.count
  headerStored : s.st ≠ .waitHeader → s.fHdr = Config.reqSync
  crcOfReceived : s.st ≠ .waitHeader → s.crcAcc = crc8 ([s.fHdr, s.fAddr, s.fOpc].take s.cnt.toNat)

/-- The observation record: bytes leave in the order they entered (R60), the event outputs show the latest accept
(R32), and no frame was rejected for its length (R186). -/
structure RecordInv (s : State) : Prop where
  fifo : s.enqTrace = s.txTrace ++ s.content
  latestEvent : s.evtAddr = s.evtTrace.getLastD 0
  pulseHasEvent : s.evtValid = true → s.evtTrace ≠ []
  noLengthReject : ∀ d ∈ s.diag, d.code ≠ 2

/-- What enqueuing a list of bytes in order leaves (R121, R129, R131): as many bytes as there is room for follow the
content, the rest are dropped one classification each, and only the written entries of the storage change. -/
structure Enqueued (bytes : List Byte) (s t : State) : Prop where
  content : t.content = s.content ++ bytes.take s.free
  count : t.qCount = s.qCount + min bytes.length s.free
  tail : t.qTail = (s.qTail + min bytes.length s.free) % s.txqCap
  dropped : t.diag = s.diag ++ (bytes.drop s.free).map Diag.txOverflow
  accepted : t.enqTrace = s.enqTrace ++ bytes.take s.free
  storage : ∀ i, (∀ k < min bytes.length s.free, i ≠ (s.qTail + k) % s.txqCap) → t.qMem.read i = s.qMem.read i
  rest : t = { s with
    qMem := t.qMem, qTail := t.qTail, qCount := t.qCount, diag := t.diag, enqTrace := t.enqTrace }

/-- All of them together. -/
structure EngineInv (s : State) : Prop where
  queue : QueueInv s
  parser : ParserInv s
  record : RecordInv s

/-! ### The terms claims are made in -/

/-- The byte that RX_BYTE, or a row of it, presents to the parser (R81). -/
def receivedByte : Instr → Option Byte
  | .rxByte d => some d
  | .rxByteSync => some Config.reqSync
  | .rxByteSyncLoss d => some d
  | .rxByteAddress d => some d
  | .rxByteOpcode d => some d
  | .rxByteCrcAccept d => some d
  | .rxByteCrcReject d => some d
  | .readTelemetry _ _ => none
  | .response _ _ _ _ _ _ _ => none
  | .idle => none
  | .lineErr => none
  | .txPop => none
  | .txDone => none
  | .reset => none
  | .reservedKind6 _ => none
  | .reservedKind7 _ => none
  | .reservedData _ _ => none
  | .crc8Step _ _ => none
  | .crc8 _ => none
  | .enqueue _ => none
  | .dequeue => none
  | .isEmpty => none
  | .len => none
  | .isFull => none
  | .enqueueFrame _ => none
  | .buildResponse _ _ _ _ => none

/-- The instructions that present a whole frame, one byte a clock cycle. -/
def presentsFrame : Instr → Bool
  | .readTelemetry _ _ => true
  | .response _ _ _ _ _ _ _ => true
  | .idle => false
  | .rxByte _ => false
  | .rxByteSync => false
  | .rxByteSyncLoss _ => false
  | .rxByteAddress _ => false
  | .rxByteOpcode _ => false
  | .rxByteCrcAccept _ => false
  | .rxByteCrcReject _ => false
  | .lineErr => false
  | .txPop => false
  | .txDone => false
  | .reset => false
  | .reservedKind6 _ => false
  | .reservedKind7 _ => false
  | .reservedData _ _ => false
  | .crc8Step _ _ => false
  | .crc8 _ => false
  | .enqueue _ => false
  | .dequeue => false
  | .isEmpty => false
  | .len => false
  | .isFull => false
  | .enqueueFrame _ => false
  | .buildResponse _ _ _ _ => false

/-- The byte `d`, received in this state, completes a request that passes validation (R176). -/
def State.accepts (s : State) (d : Byte) : Prop := s.st = .waitCrc ∧ s.frameOk d = true

/-- The clock cycle with ports `p` accepts a request (R206). -/
def cycleAccepts (p : Ports) (s : State) : Prop :=
  p.rst = false ∧ p.rxErr = false ∧ p.rxValid = true ∧ s.accepts p.rxData

/-- The response that an accept in this state builds (R177). -/
def State.response (s : State) : List Byte :=
  buildResponse s.fAddr s.telemetry.temperature s.telemetry.level s.telemetry.frequency

/-- Instructions run one after another. -/
def execAll : List Instr → State → Result State
  | [], s => .next s
  | i :: is, s => andThen (exec i s) (execAll is)

/-- The Parser State (R21), register by register. -/
def SameParser (s t : State) : Prop :=
  t.st = s.st ∧ t.fHdr = s.fHdr ∧ t.fAddr = s.fAddr ∧ t.fOpc = s.fOpc ∧ t.fCrc = s.fCrc ∧
    t.crcAcc = s.crcAcc ∧ t.cnt = s.cnt

/-- The state with every register blanked that the current frame has not written yet, or that no rule reads
(R40). -/
def State.forgetStale (s : State) : State :=
  { s with
    fHdr := 0
    fCrc := 0
    fAddr := if s.st = .waitHeader ∨ s.st = .waitAddress then 0 else s.fAddr
    fOpc := if s.st = .waitCrc then s.fOpc else 0
    crcAcc := if s.st = .waitHeader then 0 else s.crcAcc }

/-- Two states that differ at most in queue entries outside the logical content (R28). -/
def SameButDeadEntries (s t : State) : Prop := t = { s with qMem := t.qMem } ∧ t.content = s.content

end Sys2Proof.Machine
end

