-- ==== Sys2Proof/Certificates/Slice0/Obligations.lean ====
section
/-! DEFINITION. The statements for the provers. Each docstring names the rules of spec/ it formalises. Clauses on the
model's own fields (`ret`, `enqTrace`, `tel`, `telDraws`, `inputs`) rest on log entries 3, 4, 5 and 7. -/

open Sys2Proof Sys2Proof.Machine

/-! ### Reset, boot and the step -/

/-- R37 (10_state.md section 8): the register and status values right after reset. The values other than `st` and
`cnt` are the spec's own decision D10. -/
def Obligations.ResetStateHoldsSpecValues : Prop :=
  State.reset.st = .waitHeader ∧ State.reset.cnt = 0 ∧ State.reset.crcAcc = 0 ∧ State.reset.fHdr = 0 ∧
  State.reset.fAddr = 0 ∧ State.reset.fOpc = 0 ∧ State.reset.fCrc = 0 ∧ State.reset.qHead = 0 ∧
  State.reset.qTail = 0 ∧ State.reset.qCount = 0 ∧ State.reset.evtValid = false ∧ State.reset.evtAddr = 0 ∧
  State.reset.evtTrace = [] ∧ State.reset.txTrace = [] ∧ State.reset.diag = [] ∧
  State.reset.outputs = { txValid := false, txData := 0, qLen := 0, qEmpty := true, qFull := false,
                          evtValid := false, evtAddr := 0 }

/-- R260: RESET from every state. q_mem is not written (the record update leaves it), nor are the capacity and the
environment's fields. The spec's decisions D2 and D10 stand behind the rule. -/
def Obligations.ResetFromEveryState : Prop :=
  ∀ s : State, exec .reset s = .next { s with
    st := .waitHeader, cnt := 0, crcAcc := 0, fHdr := 0, fAddr := 0, fOpc := 0, fCrc := 0
    qHead := 0, qTail := 0, qCount := 0, evtValid := false, evtAddr := 0
    evtTrace := [], txTrace := [], diag := [], enqTrace := [], ret := .nothing }

/-- A step runs the decoded instruction: a coded item that decodes is executed on the state with that item taken off
the inputs, and a table word placed by withFetchWord is the next one run. A step whose next item is a clock cycle is
that cycle, one whose next item is the telemetry directive of R83 changes only what is driven, and with nothing
waiting the step is an IDLE cycle (all are the model's form of what the outside does: log entries 3 and 7, items wait
in `inputs`). -/
def Obligations.StepRunsDecodedInstruction : Prop :=
  (∀ (s : State) (r : RawWord) (rest : List Input) (i : Instr),
    9 ≤ s.txqCap → s.inputs = .word r :: rest → decode r = .ok i → step s = exec i { s with inputs := rest }) ∧
  (∀ (s : State) (nbits w : Nat) (i : Instr),
    9 ≤ s.txqCap → decodeTableWord nbits w = some i → step (s.withFetchWord nbits w) = exec i s) ∧
  (∀ (s : State) (p : Ports) (rest : List Input),
    9 ≤ s.txqCap → s.inputs = .cycle p :: rest → step s = clockCycle p { s with inputs := rest }) ∧
  (∀ (s : State) (v : Option Telemetry) (rest : List Input),
    9 ≤ s.txqCap → s.inputs = .tel v :: rest → step s = .next { s with inputs := rest, tel := v }) ∧
  (∀ s : State, 9 ≤ s.txqCap → s.inputs = [] → step s = exec .idle s)

/-- Bytes that form no frame of the table do not stop the machine (R79: none of the illegal request encodings traps).
That a step receives such a byte list one by one, the empty list included, is the model's choice (log entry 13), and
so is that a byte list is one item (log entry 7). -/
def Obligations.UnknownFramesAreReceivedByteByByte : Prop :=
  ∀ (s : State) (bytes : List Byte) (rest : List Input) (e : DecodeRefusal),
    9 ≤ s.txqCap → s.inputs = .word (.frame bytes) :: rest → decode (.frame bytes) = .error e →
    step s = execAll (bytes.map Instr.rxByte) { s with inputs := rest }

/-- R212: IDLE, as a word and as a cycle with no input asserted, changes no register but `evt_valid`. -/
def Obligations.IdleChangesOnlyThePulse : Prop :=
  ∀ s : State,
    exec .idle s = .next { s with evtValid := false } ∧
    clockCycle {} s = .next { s with evtValid := false }

/-- R126: the capacity never changes, and a configuration below one response frame is refused. -/
def Obligations.CapacityIsFixedAndChecked : Prop :=
  (∀ s : State, s.txqCap < 9 → step s = .refused (.capacityBelowOneFrame s.txqCap)) ∧
  (∀ (i : Instr) (s t : State), exec i s = .next t → t.txqCap = s.txqCap) ∧
  (∀ s t : State, step s = .next t → t.txqCap = s.txqCap)

/-- R82: reserved event words are refused by name, as instructions and by a step that meets them (the refusal is the
spec's decision D15). -/
def Obligations.ReservedEventWordsAreRefused : Prop :=
  (∀ (x : Byte) (s : State), exec (.reservedKind6 x) s = .refused (.reservedKind6 x)) ∧
  (∀ (x : Byte) (s : State), exec (.reservedKind7 x) s = .refused (.reservedKind7 x)) ∧
  (∀ (k : BitVec 3) (x : Byte) (s : State), exec (.reservedData k x) s = .refused (.reservedData k x)) ∧
  (∀ (s : State) (w : BitVec 11) (rest : List Input), 9 ≤ s.txqCap → s.inputs = .word (.event w) :: rest →
    (eventKind w = 6 → step s = .refused (.reservedKind6 (eventData w))) ∧
    (eventKind w = 7 → step s = .refused (.reservedKind7 (eventData w))) ∧
    (eventKind w ≠ 1 → eventKind w < 6 → eventData w ≠ 0 →
      step s = .refused (.reservedData (eventKind w) (eventData w))))

/-! ### Encoding -/

/-- R80, R81, R82: the EV11 table, for every kind and every data byte, and every word is one of them. -/
def Obligations.EventWordsDecodeByKind : Prop :=
  (∀ w : BitVec 11, w = eventWord (eventKind w) (eventData w)) ∧
  (∀ d : Byte, decode (.event (eventWord 1 d)) = .ok (.rxByte d)) ∧
  decode (.event (eventWord 0 0)) = .ok .idle ∧
  decode (.event (eventWord 2 0)) = .ok .lineErr ∧
  decode (.event (eventWord 3 0)) = .ok .txPop ∧
  decode (.event (eventWord 4 0)) = .ok .txDone ∧
  decode (.event (eventWord 5 0)) = .ok .reset ∧
  (∀ (k : BitVec 3) (d : Byte), k ≠ 1 → k < 6 → d ≠ 0 →
    decode (.event (eventWord k d)) = .error (.reservedData k d)) ∧
  (∀ d : Byte, decode (.event (eventWord 6 d)) = .error (.reservedKind6 d)) ∧
  (∀ d : Byte, decode (.event (eventWord 7 d)) = .error (.reservedKind7 d))

/-- Words written out from R71, R74 and the table of 95_test_vectors.md section 3.7 decode to what they stand for. -/
def Obligations.SpecWordsDecode : Prop :=
  decodeTableWord 16 0b00000000000 = some .idle ∧
  decodeTableWord 16 0b00100110001 = some (.rxByte 0x31) ∧
  decodeTableWord 16 0b00111111111 = some (.rxByte 0xFF) ∧
  decodeTableWord 16 0b01000000000 = some .lineErr ∧
  decodeTableWord 16 0b01100000000 = some .txPop ∧
  decodeTableWord 16 0b10000000000 = some .txDone ∧
  decodeTableWord 16 0b10100000000 = some .reset ∧
  decodeTableWord 16 0b01000000001 = none ∧
  decodeTableWord 16 0b11000000000 = none ∧
  decodeTableWord 16 0b11111111111 = none ∧
  decodeTableWord 32 0x311206D5 = some (.readTelemetry 0x12 0xD5) ∧
  decodeTableWord 72 0x3E1206193412CDAB08 = some (.response 0x12 0x19 0x34 0x12 0xCD 0xAB 0x08)

/-- Decoding what the encoder writes gives the instruction back, for every well-formed instruction that has an
encoding (a row of RX_BYTE gives RX_BYTE, whose word it shares, R81). -/
def Obligations.DecodeOfEncode : Prop :=
  ∀ (i : Instr) (r : RawWord), i.wellFormed = true → encode i = some r → decode r = .ok (decodedAs i)

/-- The other direction: what decodes is well-formed, has one word, and is no row that shares another's word. -/
def Obligations.EncodeOfDecode : Prop :=
  ∀ (r : RawWord) (i : Instr), decode r = .ok i → encode i = some r ∧ i.wellFormed = true ∧ decodedAs i = i

/-! ### CRC8 engine -/

/-- R100: the step is the XOR of the constants selected by the bits of `byte ^ crc`; as an instruction it returns
that byte and writes no state (the returned value stands in the model's field `ret`, log entry 5). -/
def Obligations.Crc8StepIsSelectedXor : Prop :=
  ∀ (byte crc : Byte) (s : State),
    exec (.crc8Step byte crc) s = .next { s with ret := .byte (crc8Step byte crc) } ∧
    crc8Step byte crc =
      (let i := byte ^^^ crc
       let pick := fun (k : Nat) (c : Byte) => if i.getLsbD k then c else 0
       pick 0 0x5E ^^^ pick 1 0xBC ^^^ pick 2 0x61 ^^^ pick 3 0xC2 ^^^ pick 4 0x9D ^^^ pick 5 0x23 ^^^ pick 6 0x46 ^^^
         pick 7 0x8C) ∧
    crc8Step byte byte = 0

/-- R102: the fold over a byte list from seed 0, in frame order; as an instruction it returns that byte and writes no
state (`ret`, log entry 5). -/
def Obligations.Crc8FoldsFromSeedZero : Prop :=
  (∀ (bytes : List Byte) (s : State), exec (.crc8 bytes) s = .next { s with ret := .byte (crc8 bytes) }) ∧
  crc8 [] = 0 ∧
  (∀ (bytes : List Byte) (b : Byte), crc8 (bytes ++ [b]) = crc8Step b (crc8 bytes)) ∧
  (∀ n : Nat, crc8 (List.replicate n 0) = 0) ∧
  crc8 [0x31, 0x12, 0x06] = 0xD5

/-- R101: the XOR network is the same function for all operand pairs. -/
def Obligations.Crc8StepIsXorNetwork : Prop :=
  ∀ (byte crc : Byte) (j : Nat), (crc8Step byte crc).getLsbD j = crc8NetworkBit (byte ^^^ crc) j

/-- R103: the table of 95_test_vectors.md section 2 is the step from 0, and gives every step. -/
def Obligations.Crc8StepIsTableLookup : Prop :=
  (∀ v : Byte, crc8TableAt v = crc8Step v 0) ∧
  (∀ byte crc : Byte, crc8Step byte crc = crc8TableAt (byte ^^^ crc))

/-- R104: the step is linear, so a checksum with every bit flipped never matches. -/
def Obligations.Crc8StepIsLinear : Prop :=
  (∀ x y : Byte, crc8TableAt (x ^^^ y) = crc8TableAt x ^^^ crc8TableAt y) ∧
  crc8TableAt 0 = 0 ∧
  (∀ bytes : List Byte, crc8 (bytes ++ [crc8 bytes ^^^ 0xFF]) ≠ 0)

/-- R105: appending a list's own checksum leaves residue 0. -/
def Obligations.Crc8ResidueIsZero : Prop :=
  ∀ bytes : List Byte, crc8 (bytes ++ [crc8 bytes]) = 0

/-- R106 (informative, from general knowledge): the reflected bitwise update is the same function. -/
def Obligations.Crc8StepIsReflectedUpdate : Prop :=
  ∀ byte crc : Byte, crc8Step byte crc = crc8StepReflected byte crc

/-! ### Transmit queue -/

/-- R121: with room the byte is stored at q_tail, only that entry changes, and the byte becomes the newest of the
content; a full queue drops it with no state change but the classification (`ret`, log entry 5; `enqTrace`, log
entry 4). -/
def Obligations.EnqueueStoresOrDrops : Prop :=
  ∀ (s : State) (b : Byte), QueueInv s →
    (s.qCount < s.txqCap → ∃ t, exec (.enqueue b) s = .next t ∧
      t.content = s.content ++ [b] ∧ t.qMem.read s.qTail = b ∧
      (∀ a, a ≠ s.qTail → t.qMem.read a = s.qMem.read a) ∧
      t = { s with qMem := t.qMem, qTail := (s.qTail + 1) % s.txqCap, qCount := s.qCount + 1,
                   enqTrace := s.enqTrace ++ [b], ret := .ok true }) ∧
    (s.qCount = s.txqCap →
      exec (.enqueue b) s = .next { s with diag := s.diag ++ [.txOverflow b], ret := .ok false })

/-- R122: a dequeue returns and removes the oldest byte, or answers empty with no state change but the
classification; the byte 0x00 of the empty answer is the spec's decision D12 (`ret`, log entry 5). -/
def Obligations.DequeueTakesTheOldest : Prop :=
  ∀ s : State, QueueInv s →
    (0 < s.qCount → ∃ t, exec .dequeue s = .next t ∧
      s.content = s.qMem.read s.qHead :: t.content ∧
      t = { s with qHead := (s.qHead + 1) % s.txqCap, qCount := s.qCount - 1,
                   ret := .popped (s.qMem.read s.qHead) true }) ∧
    (s.qCount = 0 →
      exec .dequeue s = .next { s with diag := s.diag ++ [.popEmpty], ret := .popped 0 false })

/-- R123, R124: the observers return what they say of the content and change nothing (`ret`, log entry 5). -/
def Obligations.EmptyAndLengthObserversOnlyRead : Prop :=
  ∀ s : State,
    exec .isEmpty s = .next { s with ret := .flag (decide (s.qCount = 0)) } ∧
    exec .len s = .next { s with ret := .count s.qCount } ∧
    s.content.length = s.qCount ∧ (s.content = [] ↔ s.qCount = 0) ∧
    (QueueInv s → s.qCount ≤ s.txqCap)

/-- R125 (the observer is the spec's decision D30): IS_FULL returns whether no byte fits, and changes nothing. -/
def Obligations.FullObserverOnlyReads : Prop :=
  ∀ s : State, exec .isFull s = .next { s with ret := .flag (decide (s.qCount = s.txqCap)) } ∧
    (QueueInv s → (s.qFull = true ↔ s.free = 0))

/-- R127, R129, R131: enqueuing any list of bytes queues as many as fit, in order, behind the content, drops the
suffix one classification each, changes only the written entries, and keeps the queue invariants. -/
def Obligations.EnqueueFrameQueuesWhatFits : Prop :=
  ∀ (s : State) (r : List Byte), QueueInv s →
    ∃ t, exec (.enqueueFrame r) s = .next t ∧ Enqueued r s t ∧ QueueInv t

/-- An accept into a full queue fires the event and leaves the queue as it is, every byte of the response dropped
(R130, R177, R183). The Parser State is what any accept leaves: the overflow changes nothing of it (R130), so `f_hdr`,
`f_addr`, `f_opc` and `crc_acc` stand, and `f_crc`, `st` and `cnt` are as R176 and R177 write them. The event outputs
are the spec's decision D13; the use of a free telemetry draw is the model's (log entry 3). -/
def Obligations.FullQueueDoesNotSuppressTheEvent : Prop :=
  ∀ (s : State) (d : Byte), s.qCount = s.txqCap → s.accepts d →
    ∃ t, exec (.rxByte d) s = .next t ∧ t.content = s.content ∧
      t.outputs = { s.outputs with evtValid := true, evtAddr := s.fAddr } ∧
      t = { s with
        fCrc := d, cnt := 0, st := .waitHeader
        evtValid := true, evtAddr := s.fAddr, evtTrace := s.evtTrace ++ [s.fAddr]
        diag := s.diag ++ s.response.map Diag.txOverflow
        telDraws := if s.tel = none then s.telDraws + 1 else s.telDraws }

/-- R263: no instruction but a pop, a dequeue and RESET takes a byte off the queue; frame ends and line faults clear
nothing of it. -/
def Obligations.ContentShrinksOnlyByPopOrReset : Prop :=
  ∀ (i : Instr) (s t : State), QueueInv s → i ≠ .txPop → i ≠ .dequeue → i ≠ .reset → exec i s = .next t →
    s.content <+: t.content ∧ QueueInv t

/-! ### Frame codec -/

/-- R150, R151, R154: the nine bytes of a response, and BUILD_RESPONSE returns them with no side effect (`ret`, log
entry 5). The temperature byte of an int8 `n` is `n mod 256`: two's complement, which the spec takes from general
knowledge (R9, G2; log entry 17, PRESUMED). -/
def Obligations.BuildResponseLaysOutNineBytes : Prop :=
  ∀ (a t : Byte) (level frequency : U16) (s : State),
    (let body : List Byte := [0x3E, a, 0x06, t, level.extractLsb' 0 8, level.extractLsb' 8 8,
        frequency.extractLsb' 0 8, frequency.extractLsb' 8 8]
     exec (.buildResponse a t level frequency) s = .next { s with ret := .frame (body ++ [crc8 body]) } ∧
     buildResponse a t level frequency = body ++ [crc8 body]) ∧
    (∀ n : Int, ((int8Pattern n).toNat : Int) = n % 256)

/-- R155, R156: the last byte is the checksum of the rest, and the whole frame has residue 0. -/
def Obligations.ResponseChecksumRoundTrip : Prop :=
  ∀ (a t : Byte) (level frequency : U16),
    crc8 (buildResponse a t level frequency).dropLast = (buildResponse a t level frequency).getLastD 0 ∧
    crc8 (buildResponse a t level frequency) = 0 ∧
    (buildResponse a t level frequency).length = 9

/-- R157 (informative): a controller recovers every field from a response. That the temperature is read and written as
two's complement rests on general knowledge (R9, G2; log entry 17, PRESUMED, unsafe for signed temperatures). -/
def Obligations.ControllerRecoversTheFields : Prop :=
  (∀ (a t : Byte) (level frequency : U16), controllerDecode (buildResponse a t level frequency) =
    some { address := a, temperature := t.toInt, level := level, frequency := frequency }) ∧
  (∀ n : Int, -128 ≤ n → n ≤ 127 → int8Value (int8Pattern n) = n)

/-! ### Receive state machine -/

/-- R172: a sync byte in WaitHeader starts a frame. -/
def Obligations.SyncByteStartsAFrame : Prop :=
  ∀ (s : State), s.st = .waitHeader → ∀ i ∈ [Instr.rxByte 0x31, Instr.rxByteSync],
    exec i s = .next { s with fHdr := 0x31, crcAcc := 0xE0, cnt := 1, st := .waitAddress, evtValid := false }

/-- R173: any other byte in WaitHeader is discarded; only the classification (and the pulse's fall) shows it. -/
def Obligations.OtherByteIsASyncLoss : Prop :=
  ∀ (s : State) (d : Byte), s.st = .waitHeader → d ≠ 0x31 → ∀ i ∈ [Instr.rxByte d, Instr.rxByteSyncLoss d],
    exec i s = .next { s with diag := s.diag ++ [.syncLoss d], evtValid := false }

/-- R174: every byte in WaitAddress, 0x31 included, is the address. -/
def Obligations.AddressByteIsStoredAndFolded : Prop :=
  ∀ (s : State) (d : Byte), s.st = .waitAddress → ∀ i ∈ [Instr.rxByte d, Instr.rxByteAddress d],
    exec i s = .next { s with fAddr := d, crcAcc := crc8Step d s.crcAcc, cnt := s.cnt + 1, st := .waitOpcode,
                              evtValid := false }

/-- R175: every byte in WaitOpcode is the opcode, right or wrong. -/
def Obligations.OpcodeByteIsStoredAndFolded : Prop :=
  ∀ (s : State) (d : Byte), s.st = .waitOpcode → ∀ i ∈ [Instr.rxByte d, Instr.rxByteOpcode d],
    exec i s = .next { s with fOpc := d, crcAcc := crc8Step d s.crcAcc, cnt := s.cnt + 1, st := .waitCrc,
                              evtValid := false }

/-- R177 with the validation of R176: the response's bytes follow the content as far as they fit, the event fires with
the address, the parser is back in WaitHeader, and nothing else changes. The telemetry is what is driven, and with
nothing driven a free draw, which the accept uses up (log entry 3; TelemetryIsReadOnlyByAnAccept says which). -/
def Obligations.ValidFrameIsAccepted : Prop :=
  ∀ (s : State) (d : Byte), QueueInv s → s.st = .waitCrc → s.cnt + 1 = 4 → s.fOpc = 0x06 → s.crcAcc = d →
    ∀ i ∈ [Instr.rxByte d, Instr.rxByteCrcAccept d], ∃ t, exec i s = .next t ∧
      t.content = s.content ++ s.response.take s.free ∧
      (∀ a, (∀ k < min 9 s.free, a ≠ (s.qTail + k) % s.txqCap) → t.qMem.read a = s.qMem.read a) ∧
      t = { s with
        fCrc := d, cnt := 0, st := .waitHeader
        evtValid := true, evtAddr := s.fAddr, evtTrace := s.evtTrace ++ [s.fAddr]
        qMem := t.qMem, qTail := (s.qTail + min 9 s.free) % s.txqCap, qCount := s.qCount + min 9 s.free
        diag := s.diag ++ (s.response.drop s.free).map Diag.txOverflow
        enqTrace := s.enqTrace ++ s.response.take s.free
        telDraws := if s.tel = none then s.telDraws + 1 else s.telDraws }

/-- R178: a frame that fails validation changes only the parser's registers and the classification, which is the first
failing conjunct (that order is the spec's decision D21). -/
def Obligations.InvalidFrameIsRejected : Prop :=
  ∀ (s : State) (d : Byte), s.st = .waitCrc → ¬ (s.cnt + 1 = 4 ∧ s.fOpc = 0x06 ∧ s.crcAcc = d) →
    ∀ i ∈ [Instr.rxByte d, Instr.rxByteCrcReject d],
      exec i s = .next { s with
        fCrc := d, cnt := 0, st := .waitHeader, evtValid := false
        diag := s.diag ++ [if s.cnt + 1 = 4 then (if s.fOpc = 0x06 then .rejectCrc s.crcAcc d else .rejectOpcode s.fOpc)
          else .rejectLength (s.cnt + 1)] }

/-- R171, R12: a received byte is defined for every byte in every state, as RX_BYTE and as each of its rows; a row
run outside its state condition does what its word does there (that last is the model's choice, log entry 6). -/
def Obligations.EveryByteIsDefinedInEveryState : Prop :=
  ∀ (i : Instr) (s : State) (d : Byte), receivedByte i = some d →
    exec i s = exec (.rxByte d) s ∧ (QueueInv s → ∃ t, exec i s = .next t ∧ QueueInv t)

/-- R81: the parser state, the byte and the validation select the row that a word `1HH` runs. -/
def Obligations.RxByteRunsTheSelectedRow : Prop :=
  ∀ (s : State) (d : Byte),
    (s.st = .waitHeader → d = 0x31 → exec (.rxByte d) s = exec .rxByteSync s) ∧
    (s.st = .waitHeader → d ≠ 0x31 → exec (.rxByte d) s = exec (.rxByteSyncLoss d) s) ∧
    (s.st = .waitAddress → exec (.rxByte d) s = exec (.rxByteAddress d) s) ∧
    (s.st = .waitOpcode → exec (.rxByte d) s = exec (.rxByteOpcode d) s) ∧
    (s.st = .waitCrc → s.cnt + 1 = 4 ∧ s.fOpc = 0x06 ∧ s.crcAcc = d →
      exec (.rxByte d) s = exec (.rxByteCrcAccept d) s) ∧
    (s.st = .waitCrc → ¬ (s.cnt + 1 = 4 ∧ s.fOpc = 0x06 ∧ s.crcAcc = d) →
      exec (.rxByte d) s = exec (.rxByteCrcReject d) s)

/-- R179: a line fault forces WaitHeader and count 0 from every state, and touches nothing else but the
classification and the pulse. -/
def Obligations.LineFaultForcesWaitHeader : Prop :=
  ∀ s : State, exec .lineErr s = .next { s with
    st := .waitHeader, cnt := 0, evtValid := false, diag := s.diag ++ [.lineFault s.st s.cnt] }

/-- R180: nothing but RX_BYTE, LINE_ERR and RESET changes the Parser State, so a partial frame outlasts any number of
TX_POP, TX_DONE and IDLE events. -/
def Obligations.NoTimeout : Prop :=
  (∀ (i : Instr) (s t : State), receivedByte i = none → presentsFrame i = false → i ≠ .lineErr → i ≠ .reset →
    exec i s = .next t → SameParser s t) ∧
  (∀ (p : Ports) (s t : State), p.rst = false → p.rxErr = false → p.rxValid = false → clockCycle p s = .next t →
    SameParser s t) ∧
  (∀ (s : State) (is : List Instr), QueueInv s → (∀ i ∈ is, i = .txPop ∨ i = .txDone ∨ i = .idle) →
    ∃ t, execAll is s = .next t ∧ SameParser s t)

/-- R183: the accepted-request event fires in the accepting step, whatever room the queue has, and never
elsewhere. -/
def Obligations.EventFiresOncePerAccept : Prop :=
  ∀ (i : Instr) (s t : State), presentsFrame i = false → i ≠ .reset → exec i s = .next t →
    ((∃ d, receivedByte i = some d ∧ s.accepts d) →
      t.evtTrace = s.evtTrace ++ [s.fAddr] ∧ t.evtValid = true ∧ t.evtAddr = s.fAddr) ∧
    ((¬ ∃ d, receivedByte i = some d ∧ s.accepts d) → t.evtTrace = s.evtTrace)

/-- R84, R59 for READ_TELEMETRY in every state: its four bytes received in order, which completes. R78 from WaitHeader:
with the right checksum the request is accepted, with any other it is rejected by its checksum; the frame clauses are
those of R177 and R178. That the row run as an instruction is its four bytes in every parser state and with any
checksum byte, so that a wrong one is a reject, is the model's choice (log entry 10), and so is that the four clock
cycles are one item (log entry 7) and the use of a free telemetry draw (log entry 3). -/
def Obligations.ReadTelemetryIsAnsweredFromWaitHeader : Prop :=
  (∀ (s : State) (a c : Byte),
    exec (.readTelemetry a c) s = execAll [.rxByte 0x31, .rxByte a, .rxByte 0x06, .rxByte c] s ∧
    (QueueInv s → ∃ t, exec (.readTelemetry a c) s = .next t ∧ QueueInv t)) ∧
  ∀ (s : State) (a c : Byte), QueueInv s → s.st = .waitHeader →
    (c = crc8 [0x31, a, 0x06] → ∃ t, exec (.readTelemetry a c) s = .next t ∧
      (let r := buildResponse a s.telemetry.temperature s.telemetry.level s.telemetry.frequency
       t.content = s.content ++ r.take s.free ∧
       (∀ x, (∀ k < min 9 s.free, x ≠ (s.qTail + k) % s.txqCap) → t.qMem.read x = s.qMem.read x) ∧
       t = { s with
         fHdr := 0x31, fAddr := a, fOpc := 0x06, fCrc := c, crcAcc := c, cnt := 0, st := .waitHeader
         evtValid := true, evtAddr := a, evtTrace := s.evtTrace ++ [a]
         qMem := t.qMem, qTail := (s.qTail + min 9 s.free) % s.txqCap, qCount := s.qCount + min 9 s.free
         diag := s.diag ++ (r.drop s.free).map Diag.txOverflow
         enqTrace := s.enqTrace ++ r.take s.free
         telDraws := if s.tel = none then s.telDraws + 1 else s.telDraws })) ∧
    (c ≠ crc8 [0x31, a, 0x06] → exec (.readTelemetry a c) s = .next { s with
      fHdr := 0x31, fAddr := a, fOpc := 0x06, fCrc := c, crcAcc := crc8 [0x31, a, 0x06], cnt := 0, st := .waitHeader
      evtValid := false, diag := s.diag ++ [.rejectCrc (crc8 [0x31, a, 0x06]) c] })

/-- R78: of all byte quadruples received from WaitHeader, exactly those of the request map are accepted. -/
def Obligations.ExactlyTheRequestMapIsAccepted : Prop :=
  ∀ (s : State) (b0 b1 b2 b3 : Byte), QueueInv s → s.st = .waitHeader →
    ∃ t, execAll [.rxByte b0, .rxByte b1, .rxByte b2, .rxByte b3] s = .next t ∧
      ((requestWord b0 b1 b2 b3 &&& 0xFF00FF00 = 0x31000600 ∧ b3 = crc8 [0x31, b1, 0x06]) →
        t.evtTrace = s.evtTrace ++ [b1] ∧ t.evtValid = true) ∧
      (¬ (requestWord b0 b1 b2 b3 &&& 0xFF00FF00 = 0x31000600 ∧ b3 = crc8 [0x31, b1, 0x06]) →
        t.evtTrace = s.evtTrace ∧ t.content = s.content)

/-- R85: a response frame presented to the receiver is nine received bytes like any other; in WaitHeader, with no
0x31 among them, each is a sync loss. That the row RESPONSE, run as an instruction, is its nine bytes received in
order is the model's choice (log entry 10), and so is that the nine clock cycles are one item (log entry 7). -/
def Obligations.LoopedBackResponseIsOrdinaryBytes : Prop :=
  ∀ (s : State) (a t l h f g c : Byte),
    (let bytes : List Byte := [0x3E, a, 0x06, t, l, h, f, g, c]
     exec (.response a t l h f g c) s = execAll (bytes.map Instr.rxByte) s ∧
     (s.st = .waitHeader → (0x31 : Byte) ∉ bytes → exec (.response a t l h f g c) s =
       .next { s with evtValid := false, diag := s.diag ++ bytes.map Diag.syncLoss })) ∧
    (QueueInv s → ∃ u, exec (.response a t l h f g c) s = .next u ∧ QueueInv u)

/-! ### Transport boundary and the clock cycle -/

/-- R202: a pop hands over what `tx_data` and `tx_valid` present before the edge, takes it off the queue and records
it; an empty queue answers (0x00, 0) (the timing is the spec's decision D14, the byte D12; `ret`, log entry 5). -/
def Obligations.PopHandsOverThePresentedByte : Prop :=
  ∀ s : State, QueueInv s →
    (0 < s.qCount → ∃ t, exec .txPop s = .next t ∧ s.content = s.txData :: t.content ∧
      t = { s with evtValid := false, qHead := (s.qHead + 1) % s.txqCap, qCount := s.qCount - 1,
                   txTrace := s.txTrace ++ [s.txData], ret := .popped s.txData s.txValid }) ∧
    (s.qCount = 0 → exec .txPop s = .next { s with
      evtValid := false, diag := s.diag ++ [.popEmpty], ret := .popped s.txData s.txValid })

/-- R236: a pop of an empty queue returns (0x00, 0) and has no effect on the queue or on what was transmitted. -/
def Obligations.EmptyPopHasNoEffect : Prop :=
  ∀ s : State, s.qCount = 0 → ∃ t, exec .txPop s = .next t ∧ t.ret = .popped 0x00 false ∧
    t.diag = s.diag ++ [.popEmpty] ∧ t = { s with evtValid := false, diag := t.diag, ret := t.ret }

/-- R204 (the no-op is the spec's decision D14): TX_DONE writes no register; the pulse falls with the cycle. -/
def Obligations.TransmitDoneWritesNothing : Prop :=
  ∀ s : State, exec .txDone s = .next { s with evtValid := false }

/-- R206 (order D4): a cycle with one input asserted is that event, and TX_DONE never adds to a cycle. -/
def Obligations.OneInputCyclesAreEvents : Prop :=
  ∀ (s : State) (d : Byte),
    clockCycle { rxValid := true, rxData := d } s = exec (.rxByte d) s ∧
    clockCycle { rxErr := true } s = exec .lineErr s ∧
    clockCycle { txPop := true } s = exec .txPop s ∧
    clockCycle { txDone := true } s = exec .txDone s ∧
    clockCycle { rst := true } s = exec .reset s ∧
    (∀ p : Ports, clockCycle { p with txDone := true } s = clockCycle { p with txDone := false } s)

/-- R202, R206 (order D4): in a cycle with a pop and a receive event the pop comes first and sees the queue before an
accept of that cycle. -/
def Obligations.PopComesBeforeTheReceiveEvent : Prop :=
  ∀ (s : State) (d : Byte),
    clockCycle { txPop := true, rxValid := true, rxData := d } s = andThen (exec .txPop s) (exec (.rxByte d)) ∧
    clockCycle { txPop := true, rxErr := true, rxValid := true, rxData := d } s =
      andThen (exec .txPop s) (exec .lineErr)

/-- R207, R208 (D5): a byte presented with a line fault is dropped, and `rx_data` is read only in a cycle with
`rx_valid` and no fault. -/
def Obligations.FaultDropsTheByteOfItsCycle : Prop :=
  (∀ (p : Ports) (s : State), p.rxErr = true → clockCycle p s = clockCycle { p with rxValid := false } s) ∧
  (∀ (p : Ports) (s : State) (d : Byte), (p.rxErr = true ∨ p.rxValid = false) →
    clockCycle { p with rxData := d } s = clockCycle p s)

/-- R209: while `rst = 1` no other input has any effect; the cycle is RESET. -/
def Obligations.ResetOverridesTheCycle : Prop :=
  ∀ (p : Ports) (s : State), p.rst = true → clockCycle p s = exec .reset s

/-- R205, R32 (D13): after a cycle without reset, `evt_valid` is 1 exactly when the cycle accepted; `evt_addr` is then
the accepted address, and keeps its value otherwise. -/
def Obligations.PulseFollowsTheAccept : Prop :=
  ∀ (p : Ports) (s t : State), p.rst = false → clockCycle p s = .next t →
    (cycleAccepts p s → t.evtValid = true ∧ t.evtAddr = s.fAddr ∧ t.evtTrace = s.evtTrace ++ [s.fAddr]) ∧
    (¬ cycleAccepts p s → t.evtValid = false ∧ t.evtAddr = s.evtAddr ∧ t.evtTrace = s.evtTrace)

/-- R203 (D14): `tx_valid` rises only at the edge of an accept, and falls only at the edge of the pop that empties the
queue or of a reset. -/
def Obligations.TransmitIsArmedOnlyByAnAccept : Prop :=
  ∀ (p : Ports) (s t : State), clockCycle p s = .next t →
    (s.txValid = false → t.txValid = true → cycleAccepts p s) ∧
    (s.txValid = true → t.txValid = false → p.rst = true ∨ (p.txPop = true ∧ s.qCount = 1))

/-- R213: the status outputs are the queue's observers. -/
def Obligations.StatusOutputsAreTheObservers : Prop :=
  ∀ s : State, s.outputs.qLen = s.qCount ∧ (s.outputs.qEmpty = true ↔ s.qCount = 0) ∧
    (s.outputs.qFull = true ↔ s.qCount = s.txqCap)

/-- R214, R153 (the spec's decision D7): the telemetry inputs are read only in an accepting cycle. In any other cycle,
driving them differently, before the cycle or in it, changes nothing but what is driven. An accepting cycle builds its
response, behind what a pop of the same cycle leaves queued, from what the cycle itself drives, else from what was
driven before, else from a free draw, of which it then uses up one. That a driven reading stays driven, and the fields
`tel` and `telDraws`, are the model's choice (log entries 3 and 12). -/
def Obligations.TelemetryIsReadOnlyByAnAccept : Prop :=
  ∀ (p : Ports) (s : State),
    (¬ cycleAccepts p s →
      (∀ u : Option Telemetry, p.telemetry = none →
        clockCycle p { s with tel := u } = andThen (clockCycle p s) fun t => .next { t with tel := u }) ∧
      (∀ v : Telemetry, p.rst = false →
        clockCycle { p with telemetry := some v } s =
          andThen (clockCycle { p with telemetry := none } s) fun t => .next { t with tel := some v })) ∧
    (QueueInv s → cycleAccepts p s → ∃ t, clockCycle p s = .next t ∧
      (let driven := p.telemetry.or s.tel
       let v := driven.getD (Config.telemetryDraw s.telDraws)
       let queued := if p.txPop then s.content.tail else s.content
       t.content = queued ++
         (buildResponse s.fAddr v.temperature v.level v.frequency).take (s.txqCap - queued.length) ∧
       t.tel = driven ∧ t.telDraws = if driven = none then s.telDraws + 1 else s.telDraws))

/-! ### The whole machine -/

/-- The invariants hold right after reset (R39). -/
def Obligations.InvariantHoldsAtReset : Prop := EngineInv State.reset

/-- Every step keeps the invariants (R27, R23, R35, R36, R32, R60, R186), from every state that meets them. -/
def Obligations.EveryStepKeepsTheInvariant : Prop :=
  ∀ s t : State, EngineInv s → step s = .next t → EngineInv t

/-- R12: every event is defined, and none leaves the machine stuck, faulted or halted; only the reserved event words
are refused. -/
def Obligations.EveryEventIsDefined : Prop :=
  ∀ s : State, EngineInv s →
    ((∀ w rest, s.inputs = .word (.event w) :: rest →
        eventKind w ≠ 6 ∧ eventKind w ≠ 7 ∧ (eventKind w ≠ 1 → eventData w = 0)) → ∃ t, step s = .next t) ∧
    (∀ e, step s ≠ .fault e)

/-- R40: registers that the current frame has not written, or that no rule reads, affect no output and nothing that is
observed: two states that differ in them only step to states that differ in them only. -/
def Obligations.StaleRegistersAreUnobservable : Prop :=
  (∀ s : State, s.forgetStale.outputs = s.outputs) ∧
  (∀ s t : State, s.forgetStale = t.forgetStale →
    andThen (step s) (fun u => .next u.forgetStale) = andThen (step t) (fun u => .next u.forgetStale))

/-- R28: queue entries outside the logical content affect no result. -/
def Obligations.DeadQueueEntriesAreUnobservable : Prop :=
  ∀ s t : State, QueueInv s → QueueInv t → SameButDeadEntries s t →
    (∃ s' t', step s = .next s' ∧ step t = .next t' ∧ SameButDeadEntries s' t' ∧ s'.outputs = t'.outputs) ∨
    (∃ r, step s = .refused r ∧ step t = .refused r)

/-- R60: along every run from a state that meets the invariants, what was transmitted is what was queued first, in
order (`enqTrace`, log entry 4). -/
def Obligations.TransmitOrderIsEnqueueOrder : Prop :=
  ∀ (n : Nat) (s t : State), EngineInv s → core.run n s = .next t → t.txTrace <+: t.enqTrace ∧
    t.enqTrace = t.txTrace ++ t.content

/-- R26 with R7: in every state that meets the queue invariants, the queue registers fit the widths CNT_W and LEN_W
of its capacity; at the reference capacity 32 these are 5 and 6 bits (the spec's decision D6). -/
def Obligations.QueueRegistersFitTheirWidths : Prop :=
  (∀ s : State, QueueInv s → s.qHead < 2 ^ Config.indexWidth s.txqCap ∧ s.qTail < 2 ^ Config.indexWidth s.txqCap ∧
    s.qCount < 2 ^ Config.countWidth s.txqCap) ∧
  State.reset.txqCap = 32 ∧ Config.indexWidth 32 = 5 ∧ Config.countWidth 32 = 6
end

