-- ==== Sys2Proof/Laws/Decode.lean ====
section
/-! SUPPORT. The fields of an event word (R80). -/

namespace Sys2Proof

theorem eventWord_toNat (k : BitVec 3) (d : Byte) : (eventWord k d).toNat = k.toNat * 256 + d.toNat := by
  have hd : d.toNat < 2 ^ 8 := d.isLt
  rw [eventWord, BitVec.toNat_append, ← Nat.shiftLeft_add_eq_or_of_lt hd, Nat.shiftLeft_eq]

@[simp] theorem eventKind_eventWord (k : BitVec 3) (d : Byte) : eventKind (eventWord k d) = k := by
  apply BitVec.eq_of_toNat_eq
  have hk := k.isLt
  have hd := d.isLt
  rw [eventKind, BitVec.extractLsb'_toNat, eventWord_toNat, Nat.shiftRight_eq_div_pow]
  omega

@[simp] theorem eventData_eventWord (k : BitVec 3) (d : Byte) : eventData (eventWord k d) = d := by
  apply BitVec.eq_of_toNat_eq
  have hd := d.isLt
  rw [eventData, BitVec.extractLsb'_toNat, eventWord_toNat, Nat.shiftRight_eq_div_pow]
  omega

/-- The kinds whose data must be 0x00 (R80). -/
theorem plainKind_cases : ∀ k : BitVec 3, k < 6 → k ≠ 1 → k = 0 ∨ k = 2 ∨ k = 3 ∨ k = 4 ∨ k = 5 := by decide

/-- An event word is its kind and its data. -/
theorem eventWord_eta (w : BitVec 11) : eventWord (eventKind w) (eventData w) = w := by
  apply BitVec.eq_of_toNat_eq
  have hw := w.isLt
  rw [eventWord_toNat, eventKind, eventData]
  simp only [BitVec.extractLsb'_toNat, Nat.shiftRight_eq_div_pow]
  omega

/-- What the decoder can give: the five plain events, a received byte, or a frame; never a row that shares another's
word, a reserved row or an internal operation. -/
theorem decode_ok_cases {r : RawWord} {i : Instr} (h : decode r = .ok i) :
    i = .idle ∨ (∃ d, i = .rxByte d) ∨ i = .lineErr ∨ i = .txPop ∨ i = .txDone ∨ i = .reset ∨
      (∃ a c, i = .readTelemetry a c) ∨ (∃ a t l h f g c, i = .response a t l h f g c) := by
  cases r with
  | event w =>
    simp only [decode, decodeEvent, decodePlainEvent] at h
    split_ifs at h <;> (obtain rfl := Except.ok.inj h; simp)
  | frame bytes =>
    simp only [decode, decodeFrame] at h
    split at h <;> (try split_ifs at h) <;> first
      | (obtain rfl := Except.ok.inj h; simp)
      | cases h

end Sys2Proof
end

