-- ==== Sys2Proof/Laws/State.lean ====
section
/-! SUPPORT. One lemma per field per register update of Ops.lean: what each update writes and what it leaves. -/

namespace Sys2Proof.Machine.State

variable (s : State)

/-! ### raise -/

@[simp] theorem raise_st (d : Diag) : (s.raise d).st = s.st := rfl
@[simp] theorem raise_fHdr (d : Diag) : (s.raise d).fHdr = s.fHdr := rfl
@[simp] theorem raise_fAddr (d : Diag) : (s.raise d).fAddr = s.fAddr := rfl
@[simp] theorem raise_fOpc (d : Diag) : (s.raise d).fOpc = s.fOpc := rfl
@[simp] theorem raise_fCrc (d : Diag) : (s.raise d).fCrc = s.fCrc := rfl
@[simp] theorem raise_crcAcc (d : Diag) : (s.raise d).crcAcc = s.crcAcc := rfl
@[simp] theorem raise_cnt (d : Diag) : (s.raise d).cnt = s.cnt := rfl
@[simp] theorem raise_qMem (d : Diag) : (s.raise d).qMem = s.qMem := rfl
@[simp] theorem raise_qHead (d : Diag) : (s.raise d).qHead = s.qHead := rfl
@[simp] theorem raise_qTail (d : Diag) : (s.raise d).qTail = s.qTail := rfl
@[simp] theorem raise_qCount (d : Diag) : (s.raise d).qCount = s.qCount := rfl
@[simp] theorem raise_evtValid (d : Diag) : (s.raise d).evtValid = s.evtValid := rfl
@[simp] theorem raise_evtAddr (d : Diag) : (s.raise d).evtAddr = s.evtAddr := rfl
@[simp] theorem raise_evtTrace (d : Diag) : (s.raise d).evtTrace = s.evtTrace := rfl
@[simp] theorem raise_txTrace (d : Diag) : (s.raise d).txTrace = s.txTrace := rfl
@[simp] theorem raise_diag (d : Diag) : (s.raise d).diag = s.diag ++ [d] := rfl
@[simp] theorem raise_txqCap (d : Diag) : (s.raise d).txqCap = s.txqCap := rfl
@[simp] theorem raise_enqTrace (d : Diag) : (s.raise d).enqTrace = s.enqTrace := rfl
@[simp] theorem raise_ret (d : Diag) : (s.raise d).ret = s.ret := rfl
@[simp] theorem raise_tel (d : Diag) : (s.raise d).tel = s.tel := rfl
@[simp] theorem raise_telDraws (d : Diag) : (s.raise d).telDraws = s.telDraws := rfl
@[simp] theorem raise_inputs (d : Diag) : (s.raise d).inputs = s.inputs := rfl

/-! ### returning -/

@[simp] theorem returning_st (v : Returned) : (s.returning v).st = s.st := rfl
@[simp] theorem returning_fHdr (v : Returned) : (s.returning v).fHdr = s.fHdr := rfl
@[simp] theorem returning_fAddr (v : Returned) : (s.returning v).fAddr = s.fAddr := rfl
@[simp] theorem returning_fOpc (v : Returned) : (s.returning v).fOpc = s.fOpc := rfl
@[simp] theorem returning_fCrc (v : Returned) : (s.returning v).fCrc = s.fCrc := rfl
@[simp] theorem returning_crcAcc (v : Returned) : (s.returning v).crcAcc = s.crcAcc := rfl
@[simp] theorem returning_cnt (v : Returned) : (s.returning v).cnt = s.cnt := rfl
@[simp] theorem returning_qMem (v : Returned) : (s.returning v).qMem = s.qMem := rfl
@[simp] theorem returning_qHead (v : Returned) : (s.returning v).qHead = s.qHead := rfl
@[simp] theorem returning_qTail (v : Returned) : (s.returning v).qTail = s.qTail := rfl
@[simp] theorem returning_qCount (v : Returned) : (s.returning v).qCount = s.qCount := rfl
@[simp] theorem returning_evtValid (v : Returned) : (s.returning v).evtValid = s.evtValid := rfl
@[simp] theorem returning_evtAddr (v : Returned) : (s.returning v).evtAddr = s.evtAddr := rfl
@[simp] theorem returning_evtTrace (v : Returned) : (s.returning v).evtTrace = s.evtTrace := rfl
@[simp] theorem returning_txTrace (v : Returned) : (s.returning v).txTrace = s.txTrace := rfl
@[simp] theorem returning_diag (v : Returned) : (s.returning v).diag = s.diag := rfl
@[simp] theorem returning_txqCap (v : Returned) : (s.returning v).txqCap = s.txqCap := rfl
@[simp] theorem returning_enqTrace (v : Returned) : (s.returning v).enqTrace = s.enqTrace := rfl
@[simp] theorem returning_ret (v : Returned) : (s.returning v).ret = v := rfl
@[simp] theorem returning_tel (v : Returned) : (s.returning v).tel = s.tel := rfl
@[simp] theorem returning_telDraws (v : Returned) : (s.returning v).telDraws = s.telDraws := rfl
@[simp] theorem returning_inputs (v : Returned) : (s.returning v).inputs = s.inputs := rfl

/-! ### clearPulse -/

@[simp] theorem clearPulse_st : (s.clearPulse).st = s.st := rfl
@[simp] theorem clearPulse_fHdr : (s.clearPulse).fHdr = s.fHdr := rfl
@[simp] theorem clearPulse_fAddr : (s.clearPulse).fAddr = s.fAddr := rfl
@[simp] theorem clearPulse_fOpc : (s.clearPulse).fOpc = s.fOpc := rfl
@[simp] theorem clearPulse_fCrc : (s.clearPulse).fCrc = s.fCrc := rfl
@[simp] theorem clearPulse_crcAcc : (s.clearPulse).crcAcc = s.crcAcc := rfl
@[simp] theorem clearPulse_cnt : (s.clearPulse).cnt = s.cnt := rfl
@[simp] theorem clearPulse_qMem : (s.clearPulse).qMem = s.qMem := rfl
@[simp] theorem clearPulse_qHead : (s.clearPulse).qHead = s.qHead := rfl
@[simp] theorem clearPulse_qTail : (s.clearPulse).qTail = s.qTail := rfl
@[simp] theorem clearPulse_qCount : (s.clearPulse).qCount = s.qCount := rfl
@[simp] theorem clearPulse_evtValid : (s.clearPulse).evtValid = false := rfl
@[simp] theorem clearPulse_evtAddr : (s.clearPulse).evtAddr = s.evtAddr := rfl
@[simp] theorem clearPulse_evtTrace : (s.clearPulse).evtTrace = s.evtTrace := rfl
@[simp] theorem clearPulse_txTrace : (s.clearPulse).txTrace = s.txTrace := rfl
@[simp] theorem clearPulse_diag : (s.clearPulse).diag = s.diag := rfl
@[simp] theorem clearPulse_txqCap : (s.clearPulse).txqCap = s.txqCap := rfl
@[simp] theorem clearPulse_enqTrace : (s.clearPulse).enqTrace = s.enqTrace := rfl
@[simp] theorem clearPulse_ret : (s.clearPulse).ret = s.ret := rfl
@[simp] theorem clearPulse_tel : (s.clearPulse).tel = s.tel := rfl
@[simp] theorem clearPulse_telDraws : (s.clearPulse).telDraws = s.telDraws := rfl
@[simp] theorem clearPulse_inputs : (s.clearPulse).inputs = s.inputs := rfl

/-! ### emitEvent -/

@[simp] theorem emitEvent_st (a : Byte) : (s.emitEvent a).st = s.st := rfl
@[simp] theorem emitEvent_fHdr (a : Byte) : (s.emitEvent a).fHdr = s.fHdr := rfl
@[simp] theorem emitEvent_fAddr (a : Byte) : (s.emitEvent a).fAddr = s.fAddr := rfl
@[simp] theorem emitEvent_fOpc (a : Byte) : (s.emitEvent a).fOpc = s.fOpc := rfl
@[simp] theorem emitEvent_fCrc (a : Byte) : (s.emitEvent a).fCrc = s.fCrc := rfl
@[simp] theorem emitEvent_crcAcc (a : Byte) : (s.emitEvent a).crcAcc = s.crcAcc := rfl
@[simp] theorem emitEvent_cnt (a : Byte) : (s.emitEvent a).cnt = s.cnt := rfl
@[simp] theorem emitEvent_qMem (a : Byte) : (s.emitEvent a).qMem = s.qMem := rfl
@[simp] theorem emitEvent_qHead (a : Byte) : (s.emitEvent a).qHead = s.qHead := rfl
@[simp] theorem emitEvent_qTail (a : Byte) : (s.emitEvent a).qTail = s.qTail := rfl
@[simp] theorem emitEvent_qCount (a : Byte) : (s.emitEvent a).qCount = s.qCount := rfl
@[simp] theorem emitEvent_evtValid (a : Byte) : (s.emitEvent a).evtValid = true := rfl
@[simp] theorem emitEvent_evtAddr (a : Byte) : (s.emitEvent a).evtAddr = a := rfl
@[simp] theorem emitEvent_evtTrace (a : Byte) : (s.emitEvent a).evtTrace = s.evtTrace ++ [a] := rfl
@[simp] theorem emitEvent_txTrace (a : Byte) : (s.emitEvent a).txTrace = s.txTrace := rfl
@[simp] theorem emitEvent_diag (a : Byte) : (s.emitEvent a).diag = s.diag := rfl
@[simp] theorem emitEvent_txqCap (a : Byte) : (s.emitEvent a).txqCap = s.txqCap := rfl
@[simp] theorem emitEvent_enqTrace (a : Byte) : (s.emitEvent a).enqTrace = s.enqTrace := rfl
@[simp] theorem emitEvent_ret (a : Byte) : (s.emitEvent a).ret = s.ret := rfl
@[simp] theorem emitEvent_tel (a : Byte) : (s.emitEvent a).tel = s.tel := rfl
@[simp] theorem emitEvent_telDraws (a : Byte) : (s.emitEvent a).telDraws = s.telDraws := rfl
@[simp] theorem emitEvent_inputs (a : Byte) : (s.emitEvent a).inputs = s.inputs := rfl

/-! ### toWaitHeader -/

@[simp] theorem toWaitHeader_st : (s.toWaitHeader).st = .waitHeader := rfl
@[simp] theorem toWaitHeader_fHdr : (s.toWaitHeader).fHdr = s.fHdr := rfl
@[simp] theorem toWaitHeader_fAddr : (s.toWaitHeader).fAddr = s.fAddr := rfl
@[simp] theorem toWaitHeader_fOpc : (s.toWaitHeader).fOpc = s.fOpc := rfl
@[simp] theorem toWaitHeader_fCrc : (s.toWaitHeader).fCrc = s.fCrc := rfl
@[simp] theorem toWaitHeader_crcAcc : (s.toWaitHeader).crcAcc = s.crcAcc := rfl
@[simp] theorem toWaitHeader_cnt : (s.toWaitHeader).cnt = 0 := rfl
@[simp] theorem toWaitHeader_qMem : (s.toWaitHeader).qMem = s.qMem := rfl
@[simp] theorem toWaitHeader_qHead : (s.toWaitHeader).qHead = s.qHead := rfl
@[simp] theorem toWaitHeader_qTail : (s.toWaitHeader).qTail = s.qTail := rfl
@[simp] theorem toWaitHeader_qCount : (s.toWaitHeader).qCount = s.qCount := rfl
@[simp] theorem toWaitHeader_evtValid : (s.toWaitHeader).evtValid = s.evtValid := rfl
@[simp] theorem toWaitHeader_evtAddr : (s.toWaitHeader).evtAddr = s.evtAddr := rfl
@[simp] theorem toWaitHeader_evtTrace : (s.toWaitHeader).evtTrace = s.evtTrace := rfl
@[simp] theorem toWaitHeader_txTrace : (s.toWaitHeader).txTrace = s.txTrace := rfl
@[simp] theorem toWaitHeader_diag : (s.toWaitHeader).diag = s.diag := rfl
@[simp] theorem toWaitHeader_txqCap : (s.toWaitHeader).txqCap = s.txqCap := rfl
@[simp] theorem toWaitHeader_enqTrace : (s.toWaitHeader).enqTrace = s.enqTrace := rfl
@[simp] theorem toWaitHeader_ret : (s.toWaitHeader).ret = s.ret := rfl
@[simp] theorem toWaitHeader_tel : (s.toWaitHeader).tel = s.tel := rfl
@[simp] theorem toWaitHeader_telDraws : (s.toWaitHeader).telDraws = s.telDraws := rfl
@[simp] theorem toWaitHeader_inputs : (s.toWaitHeader).inputs = s.inputs := rfl

/-! ### takeHeader -/

@[simp] theorem takeHeader_st (b : Byte) : (s.takeHeader b).st = .waitAddress := rfl
@[simp] theorem takeHeader_fHdr (b : Byte) : (s.takeHeader b).fHdr = b := rfl
@[simp] theorem takeHeader_fAddr (b : Byte) : (s.takeHeader b).fAddr = s.fAddr := rfl
@[simp] theorem takeHeader_fOpc (b : Byte) : (s.takeHeader b).fOpc = s.fOpc := rfl
@[simp] theorem takeHeader_fCrc (b : Byte) : (s.takeHeader b).fCrc = s.fCrc := rfl
@[simp] theorem takeHeader_crcAcc (b : Byte) : (s.takeHeader b).crcAcc = crc8Step b 0 := rfl
@[simp] theorem takeHeader_cnt (b : Byte) : (s.takeHeader b).cnt = 1 := rfl
@[simp] theorem takeHeader_qMem (b : Byte) : (s.takeHeader b).qMem = s.qMem := rfl
@[simp] theorem takeHeader_qHead (b : Byte) : (s.takeHeader b).qHead = s.qHead := rfl
@[simp] theorem takeHeader_qTail (b : Byte) : (s.takeHeader b).qTail = s.qTail := rfl
@[simp] theorem takeHeader_qCount (b : Byte) : (s.takeHeader b).qCount = s.qCount := rfl
@[simp] theorem takeHeader_evtValid (b : Byte) : (s.takeHeader b).evtValid = s.evtValid := rfl
@[simp] theorem takeHeader_evtAddr (b : Byte) : (s.takeHeader b).evtAddr = s.evtAddr := rfl
@[simp] theorem takeHeader_evtTrace (b : Byte) : (s.takeHeader b).evtTrace = s.evtTrace := rfl
@[simp] theorem takeHeader_txTrace (b : Byte) : (s.takeHeader b).txTrace = s.txTrace := rfl
@[simp] theorem takeHeader_diag (b : Byte) : (s.takeHeader b).diag = s.diag := rfl
@[simp] theorem takeHeader_txqCap (b : Byte) : (s.takeHeader b).txqCap = s.txqCap := rfl
@[simp] theorem takeHeader_enqTrace (b : Byte) : (s.takeHeader b).enqTrace = s.enqTrace := rfl
@[simp] theorem takeHeader_ret (b : Byte) : (s.takeHeader b).ret = s.ret := rfl
@[simp] theorem takeHeader_tel (b : Byte) : (s.takeHeader b).tel = s.tel := rfl
@[simp] theorem takeHeader_telDraws (b : Byte) : (s.takeHeader b).telDraws = s.telDraws := rfl
@[simp] theorem takeHeader_inputs (b : Byte) : (s.takeHeader b).inputs = s.inputs := rfl

/-! ### takeAddress -/

@[simp] theorem takeAddress_st (b : Byte) : (s.takeAddress b).st = .waitOpcode := rfl
@[simp] theorem takeAddress_fHdr (b : Byte) : (s.takeAddress b).fHdr = s.fHdr := rfl
@[simp] theorem takeAddress_fAddr (b : Byte) : (s.takeAddress b).fAddr = b := rfl
@[simp] theorem takeAddress_fOpc (b : Byte) : (s.takeAddress b).fOpc = s.fOpc := rfl
@[simp] theorem takeAddress_fCrc (b : Byte) : (s.takeAddress b).fCrc = s.fCrc := rfl
@[simp] theorem takeAddress_crcAcc (b : Byte) : (s.takeAddress b).crcAcc = crc8Step b s.crcAcc := rfl
@[simp] theorem takeAddress_cnt (b : Byte) : (s.takeAddress b).cnt = s.cnt + 1 := rfl
@[simp] theorem takeAddress_qMem (b : Byte) : (s.takeAddress b).qMem = s.qMem := rfl
@[simp] theorem takeAddress_qHead (b : Byte) : (s.takeAddress b).qHead = s.qHead := rfl
@[simp] theorem takeAddress_qTail (b : Byte) : (s.takeAddress b).qTail = s.qTail := rfl
@[simp] theorem takeAddress_qCount (b : Byte) : (s.takeAddress b).qCount = s.qCount := rfl
@[simp] theorem takeAddress_evtValid (b : Byte) : (s.takeAddress b).evtValid = s.evtValid := rfl
@[simp] theorem takeAddress_evtAddr (b : Byte) : (s.takeAddress b).evtAddr = s.evtAddr := rfl
@[simp] theorem takeAddress_evtTrace (b : Byte) : (s.takeAddress b).evtTrace = s.evtTrace := rfl
@[simp] theorem takeAddress_txTrace (b : Byte) : (s.takeAddress b).txTrace = s.txTrace := rfl
@[simp] theorem takeAddress_diag (b : Byte) : (s.takeAddress b).diag = s.diag := rfl
@[simp] theorem takeAddress_txqCap (b : Byte) : (s.takeAddress b).txqCap = s.txqCap := rfl
@[simp] theorem takeAddress_enqTrace (b : Byte) : (s.takeAddress b).enqTrace = s.enqTrace := rfl
@[simp] theorem takeAddress_ret (b : Byte) : (s.takeAddress b).ret = s.ret := rfl
@[simp] theorem takeAddress_tel (b : Byte) : (s.takeAddress b).tel = s.tel := rfl
@[simp] theorem takeAddress_telDraws (b : Byte) : (s.takeAddress b).telDraws = s.telDraws := rfl
@[simp] theorem takeAddress_inputs (b : Byte) : (s.takeAddress b).inputs = s.inputs := rfl

/-! ### takeOpcode -/

@[simp] theorem takeOpcode_st (b : Byte) : (s.takeOpcode b).st = .waitCrc := rfl
@[simp] theorem takeOpcode_fHdr (b : Byte) : (s.takeOpcode b).fHdr = s.fHdr := rfl
@[simp] theorem takeOpcode_fAddr (b : Byte) : (s.takeOpcode b).fAddr = s.fAddr := rfl
@[simp] theorem takeOpcode_fOpc (b : Byte) : (s.takeOpcode b).fOpc = b := rfl
@[simp] theorem takeOpcode_fCrc (b : Byte) : (s.takeOpcode b).fCrc = s.fCrc := rfl
@[simp] theorem takeOpcode_crcAcc (b : Byte) : (s.takeOpcode b).crcAcc = crc8Step b s.crcAcc := rfl
@[simp] theorem takeOpcode_cnt (b : Byte) : (s.takeOpcode b).cnt = s.cnt + 1 := rfl
@[simp] theorem takeOpcode_qMem (b : Byte) : (s.takeOpcode b).qMem = s.qMem := rfl
@[simp] theorem takeOpcode_qHead (b : Byte) : (s.takeOpcode b).qHead = s.qHead := rfl
@[simp] theorem takeOpcode_qTail (b : Byte) : (s.takeOpcode b).qTail = s.qTail := rfl
@[simp] theorem takeOpcode_qCount (b : Byte) : (s.takeOpcode b).qCount = s.qCount := rfl
@[simp] theorem takeOpcode_evtValid (b : Byte) : (s.takeOpcode b).evtValid = s.evtValid := rfl
@[simp] theorem takeOpcode_evtAddr (b : Byte) : (s.takeOpcode b).evtAddr = s.evtAddr := rfl
@[simp] theorem takeOpcode_evtTrace (b : Byte) : (s.takeOpcode b).evtTrace = s.evtTrace := rfl
@[simp] theorem takeOpcode_txTrace (b : Byte) : (s.takeOpcode b).txTrace = s.txTrace := rfl
@[simp] theorem takeOpcode_diag (b : Byte) : (s.takeOpcode b).diag = s.diag := rfl
@[simp] theorem takeOpcode_txqCap (b : Byte) : (s.takeOpcode b).txqCap = s.txqCap := rfl
@[simp] theorem takeOpcode_enqTrace (b : Byte) : (s.takeOpcode b).enqTrace = s.enqTrace := rfl
@[simp] theorem takeOpcode_ret (b : Byte) : (s.takeOpcode b).ret = s.ret := rfl
@[simp] theorem takeOpcode_tel (b : Byte) : (s.takeOpcode b).tel = s.tel := rfl
@[simp] theorem takeOpcode_telDraws (b : Byte) : (s.takeOpcode b).telDraws = s.telDraws := rfl
@[simp] theorem takeOpcode_inputs (b : Byte) : (s.takeOpcode b).inputs = s.inputs := rfl

/-! ### takeCrc -/

@[simp] theorem takeCrc_st (b : Byte) : (s.takeCrc b).st = s.st := rfl
@[simp] theorem takeCrc_fHdr (b : Byte) : (s.takeCrc b).fHdr = s.fHdr := rfl
@[simp] theorem takeCrc_fAddr (b : Byte) : (s.takeCrc b).fAddr = s.fAddr := rfl
@[simp] theorem takeCrc_fOpc (b : Byte) : (s.takeCrc b).fOpc = s.fOpc := rfl
@[simp] theorem takeCrc_fCrc (b : Byte) : (s.takeCrc b).fCrc = b := rfl
@[simp] theorem takeCrc_crcAcc (b : Byte) : (s.takeCrc b).crcAcc = s.crcAcc := rfl
@[simp] theorem takeCrc_cnt (b : Byte) : (s.takeCrc b).cnt = s.cnt := rfl
@[simp] theorem takeCrc_qMem (b : Byte) : (s.takeCrc b).qMem = s.qMem := rfl
@[simp] theorem takeCrc_qHead (b : Byte) : (s.takeCrc b).qHead = s.qHead := rfl
@[simp] theorem takeCrc_qTail (b : Byte) : (s.takeCrc b).qTail = s.qTail := rfl
@[simp] theorem takeCrc_qCount (b : Byte) : (s.takeCrc b).qCount = s.qCount := rfl
@[simp] theorem takeCrc_evtValid (b : Byte) : (s.takeCrc b).evtValid = s.evtValid := rfl
@[simp] theorem takeCrc_evtAddr (b : Byte) : (s.takeCrc b).evtAddr = s.evtAddr := rfl
@[simp] theorem takeCrc_evtTrace (b : Byte) : (s.takeCrc b).evtTrace = s.evtTrace := rfl
@[simp] theorem takeCrc_txTrace (b : Byte) : (s.takeCrc b).txTrace = s.txTrace := rfl
@[simp] theorem takeCrc_diag (b : Byte) : (s.takeCrc b).diag = s.diag := rfl
@[simp] theorem takeCrc_txqCap (b : Byte) : (s.takeCrc b).txqCap = s.txqCap := rfl
@[simp] theorem takeCrc_enqTrace (b : Byte) : (s.takeCrc b).enqTrace = s.enqTrace := rfl
@[simp] theorem takeCrc_ret (b : Byte) : (s.takeCrc b).ret = s.ret := rfl
@[simp] theorem takeCrc_tel (b : Byte) : (s.takeCrc b).tel = s.tel := rfl
@[simp] theorem takeCrc_telDraws (b : Byte) : (s.takeCrc b).telDraws = s.telDraws := rfl
@[simp] theorem takeCrc_inputs (b : Byte) : (s.takeCrc b).inputs = s.inputs := rfl

/-! ### advanceTail -/

@[simp] theorem advanceTail_st (b : Byte) : (s.advanceTail b).st = s.st := rfl
@[simp] theorem advanceTail_fHdr (b : Byte) : (s.advanceTail b).fHdr = s.fHdr := rfl
@[simp] theorem advanceTail_fAddr (b : Byte) : (s.advanceTail b).fAddr = s.fAddr := rfl
@[simp] theorem advanceTail_fOpc (b : Byte) : (s.advanceTail b).fOpc = s.fOpc := rfl
@[simp] theorem advanceTail_fCrc (b : Byte) : (s.advanceTail b).fCrc = s.fCrc := rfl
@[simp] theorem advanceTail_crcAcc (b : Byte) : (s.advanceTail b).crcAcc = s.crcAcc := rfl
@[simp] theorem advanceTail_cnt (b : Byte) : (s.advanceTail b).cnt = s.cnt := rfl
@[simp] theorem advanceTail_qMem (b : Byte) : (s.advanceTail b).qMem = s.qMem := rfl
@[simp] theorem advanceTail_qHead (b : Byte) : (s.advanceTail b).qHead = s.qHead := rfl
@[simp] theorem advanceTail_qTail (b : Byte) : (s.advanceTail b).qTail = succMod s.txqCap s.qTail := rfl
@[simp] theorem advanceTail_qCount (b : Byte) : (s.advanceTail b).qCount = s.qCount + 1 := rfl
@[simp] theorem advanceTail_evtValid (b : Byte) : (s.advanceTail b).evtValid = s.evtValid := rfl
@[simp] theorem advanceTail_evtAddr (b : Byte) : (s.advanceTail b).evtAddr = s.evtAddr := rfl
@[simp] theorem advanceTail_evtTrace (b : Byte) : (s.advanceTail b).evtTrace = s.evtTrace := rfl
@[simp] theorem advanceTail_txTrace (b : Byte) : (s.advanceTail b).txTrace = s.txTrace := rfl
@[simp] theorem advanceTail_diag (b : Byte) : (s.advanceTail b).diag = s.diag := rfl
@[simp] theorem advanceTail_txqCap (b : Byte) : (s.advanceTail b).txqCap = s.txqCap := rfl
@[simp] theorem advanceTail_enqTrace (b : Byte) : (s.advanceTail b).enqTrace = s.enqTrace ++ [b] := rfl
@[simp] theorem advanceTail_ret (b : Byte) : (s.advanceTail b).ret = s.ret := rfl
@[simp] theorem advanceTail_tel (b : Byte) : (s.advanceTail b).tel = s.tel := rfl
@[simp] theorem advanceTail_telDraws (b : Byte) : (s.advanceTail b).telDraws = s.telDraws := rfl
@[simp] theorem advanceTail_inputs (b : Byte) : (s.advanceTail b).inputs = s.inputs := rfl

/-! ### advanceHead -/

@[simp] theorem advanceHead_st : (s.advanceHead).st = s.st := rfl
@[simp] theorem advanceHead_fHdr : (s.advanceHead).fHdr = s.fHdr := rfl
@[simp] theorem advanceHead_fAddr : (s.advanceHead).fAddr = s.fAddr := rfl
@[simp] theorem advanceHead_fOpc : (s.advanceHead).fOpc = s.fOpc := rfl
@[simp] theorem advanceHead_fCrc : (s.advanceHead).fCrc = s.fCrc := rfl
@[simp] theorem advanceHead_crcAcc : (s.advanceHead).crcAcc = s.crcAcc := rfl
@[simp] theorem advanceHead_cnt : (s.advanceHead).cnt = s.cnt := rfl
@[simp] theorem advanceHead_qMem : (s.advanceHead).qMem = s.qMem := rfl
@[simp] theorem advanceHead_qHead : (s.advanceHead).qHead = succMod s.txqCap s.qHead := rfl
@[simp] theorem advanceHead_qTail : (s.advanceHead).qTail = s.qTail := rfl
@[simp] theorem advanceHead_qCount : (s.advanceHead).qCount = s.qCount - 1 := rfl
@[simp] theorem advanceHead_evtValid : (s.advanceHead).evtValid = s.evtValid := rfl
@[simp] theorem advanceHead_evtAddr : (s.advanceHead).evtAddr = s.evtAddr := rfl
@[simp] theorem advanceHead_evtTrace : (s.advanceHead).evtTrace = s.evtTrace := rfl
@[simp] theorem advanceHead_txTrace : (s.advanceHead).txTrace = s.txTrace := rfl
@[simp] theorem advanceHead_diag : (s.advanceHead).diag = s.diag := rfl
@[simp] theorem advanceHead_txqCap : (s.advanceHead).txqCap = s.txqCap := rfl
@[simp] theorem advanceHead_enqTrace : (s.advanceHead).enqTrace = s.enqTrace := rfl
@[simp] theorem advanceHead_ret : (s.advanceHead).ret = s.ret := rfl
@[simp] theorem advanceHead_tel : (s.advanceHead).tel = s.tel := rfl
@[simp] theorem advanceHead_telDraws : (s.advanceHead).telDraws = s.telDraws := rfl
@[simp] theorem advanceHead_inputs : (s.advanceHead).inputs = s.inputs := rfl

/-! ### recordTx -/

@[simp] theorem recordTx_st (b : Byte) : (s.recordTx b).st = s.st := rfl
@[simp] theorem recordTx_fHdr (b : Byte) : (s.recordTx b).fHdr = s.fHdr := rfl
@[simp] theorem recordTx_fAddr (b : Byte) : (s.recordTx b).fAddr = s.fAddr := rfl
@[simp] theorem recordTx_fOpc (b : Byte) : (s.recordTx b).fOpc = s.fOpc := rfl
@[simp] theorem recordTx_fCrc (b : Byte) : (s.recordTx b).fCrc = s.fCrc := rfl
@[simp] theorem recordTx_crcAcc (b : Byte) : (s.recordTx b).crcAcc = s.crcAcc := rfl
@[simp] theorem recordTx_cnt (b : Byte) : (s.recordTx b).cnt = s.cnt := rfl
@[simp] theorem recordTx_qMem (b : Byte) : (s.recordTx b).qMem = s.qMem := rfl
@[simp] theorem recordTx_qHead (b : Byte) : (s.recordTx b).qHead = s.qHead := rfl
@[simp] theorem recordTx_qTail (b : Byte) : (s.recordTx b).qTail = s.qTail := rfl
@[simp] theorem recordTx_qCount (b : Byte) : (s.recordTx b).qCount = s.qCount := rfl
@[simp] theorem recordTx_evtValid (b : Byte) : (s.recordTx b).evtValid = s.evtValid := rfl
@[simp] theorem recordTx_evtAddr (b : Byte) : (s.recordTx b).evtAddr = s.evtAddr := rfl
@[simp] theorem recordTx_evtTrace (b : Byte) : (s.recordTx b).evtTrace = s.evtTrace := rfl
@[simp] theorem recordTx_txTrace (b : Byte) : (s.recordTx b).txTrace = s.txTrace ++ [b] := rfl
@[simp] theorem recordTx_diag (b : Byte) : (s.recordTx b).diag = s.diag := rfl
@[simp] theorem recordTx_txqCap (b : Byte) : (s.recordTx b).txqCap = s.txqCap := rfl
@[simp] theorem recordTx_enqTrace (b : Byte) : (s.recordTx b).enqTrace = s.enqTrace := rfl
@[simp] theorem recordTx_ret (b : Byte) : (s.recordTx b).ret = s.ret := rfl
@[simp] theorem recordTx_tel (b : Byte) : (s.recordTx b).tel = s.tel := rfl
@[simp] theorem recordTx_telDraws (b : Byte) : (s.recordTx b).telDraws = s.telDraws := rfl
@[simp] theorem recordTx_inputs (b : Byte) : (s.recordTx b).inputs = s.inputs := rfl

/-! ### setInputs -/

@[simp] theorem setInputs_st (r : List Input) : (s.setInputs r).st = s.st := rfl
@[simp] theorem setInputs_fHdr (r : List Input) : (s.setInputs r).fHdr = s.fHdr := rfl
@[simp] theorem setInputs_fAddr (r : List Input) : (s.setInputs r).fAddr = s.fAddr := rfl
@[simp] theorem setInputs_fOpc (r : List Input) : (s.setInputs r).fOpc = s.fOpc := rfl
@[simp] theorem setInputs_fCrc (r : List Input) : (s.setInputs r).fCrc = s.fCrc := rfl
@[simp] theorem setInputs_crcAcc (r : List Input) : (s.setInputs r).crcAcc = s.crcAcc := rfl
@[simp] theorem setInputs_cnt (r : List Input) : (s.setInputs r).cnt = s.cnt := rfl
@[simp] theorem setInputs_qMem (r : List Input) : (s.setInputs r).qMem = s.qMem := rfl
@[simp] theorem setInputs_qHead (r : List Input) : (s.setInputs r).qHead = s.qHead := rfl
@[simp] theorem setInputs_qTail (r : List Input) : (s.setInputs r).qTail = s.qTail := rfl
@[simp] theorem setInputs_qCount (r : List Input) : (s.setInputs r).qCount = s.qCount := rfl
@[simp] theorem setInputs_evtValid (r : List Input) : (s.setInputs r).evtValid = s.evtValid := rfl
@[simp] theorem setInputs_evtAddr (r : List Input) : (s.setInputs r).evtAddr = s.evtAddr := rfl
@[simp] theorem setInputs_evtTrace (r : List Input) : (s.setInputs r).evtTrace = s.evtTrace := rfl
@[simp] theorem setInputs_txTrace (r : List Input) : (s.setInputs r).txTrace = s.txTrace := rfl
@[simp] theorem setInputs_diag (r : List Input) : (s.setInputs r).diag = s.diag := rfl
@[simp] theorem setInputs_txqCap (r : List Input) : (s.setInputs r).txqCap = s.txqCap := rfl
@[simp] theorem setInputs_enqTrace (r : List Input) : (s.setInputs r).enqTrace = s.enqTrace := rfl
@[simp] theorem setInputs_ret (r : List Input) : (s.setInputs r).ret = s.ret := rfl
@[simp] theorem setInputs_tel (r : List Input) : (s.setInputs r).tel = s.tel := rfl
@[simp] theorem setInputs_telDraws (r : List Input) : (s.setInputs r).telDraws = s.telDraws := rfl
@[simp] theorem setInputs_inputs (r : List Input) : (s.setInputs r).inputs = r := rfl

/-! ### setTel -/

@[simp] theorem setTel_st (t : Option Telemetry) : (s.setTel t).st = s.st := rfl
@[simp] theorem setTel_fHdr (t : Option Telemetry) : (s.setTel t).fHdr = s.fHdr := rfl
@[simp] theorem setTel_fAddr (t : Option Telemetry) : (s.setTel t).fAddr = s.fAddr := rfl
@[simp] theorem setTel_fOpc (t : Option Telemetry) : (s.setTel t).fOpc = s.fOpc := rfl
@[simp] theorem setTel_fCrc (t : Option Telemetry) : (s.setTel t).fCrc = s.fCrc := rfl
@[simp] theorem setTel_crcAcc (t : Option Telemetry) : (s.setTel t).crcAcc = s.crcAcc := rfl
@[simp] theorem setTel_cnt (t : Option Telemetry) : (s.setTel t).cnt = s.cnt := rfl
@[simp] theorem setTel_qMem (t : Option Telemetry) : (s.setTel t).qMem = s.qMem := rfl
@[simp] theorem setTel_qHead (t : Option Telemetry) : (s.setTel t).qHead = s.qHead := rfl
@[simp] theorem setTel_qTail (t : Option Telemetry) : (s.setTel t).qTail = s.qTail := rfl
@[simp] theorem setTel_qCount (t : Option Telemetry) : (s.setTel t).qCount = s.qCount := rfl
@[simp] theorem setTel_evtValid (t : Option Telemetry) : (s.setTel t).evtValid = s.evtValid := rfl
@[simp] theorem setTel_evtAddr (t : Option Telemetry) : (s.setTel t).evtAddr = s.evtAddr := rfl
@[simp] theorem setTel_evtTrace (t : Option Telemetry) : (s.setTel t).evtTrace = s.evtTrace := rfl
@[simp] theorem setTel_txTrace (t : Option Telemetry) : (s.setTel t).txTrace = s.txTrace := rfl
@[simp] theorem setTel_diag (t : Option Telemetry) : (s.setTel t).diag = s.diag := rfl
@[simp] theorem setTel_txqCap (t : Option Telemetry) : (s.setTel t).txqCap = s.txqCap := rfl
@[simp] theorem setTel_enqTrace (t : Option Telemetry) : (s.setTel t).enqTrace = s.enqTrace := rfl
@[simp] theorem setTel_ret (t : Option Telemetry) : (s.setTel t).ret = s.ret := rfl
@[simp] theorem setTel_tel (t : Option Telemetry) : (s.setTel t).tel = t := rfl
@[simp] theorem setTel_telDraws (t : Option Telemetry) : (s.setTel t).telDraws = s.telDraws := rfl
@[simp] theorem setTel_inputs (t : Option Telemetry) : (s.setTel t).inputs = s.inputs := rfl

/-! ### drawTelemetry -/

@[simp] theorem drawTelemetry_st : (s.drawTelemetry).st = s.st := rfl
@[simp] theorem drawTelemetry_fHdr : (s.drawTelemetry).fHdr = s.fHdr := rfl
@[simp] theorem drawTelemetry_fAddr : (s.drawTelemetry).fAddr = s.fAddr := rfl
@[simp] theorem drawTelemetry_fOpc : (s.drawTelemetry).fOpc = s.fOpc := rfl
@[simp] theorem drawTelemetry_fCrc : (s.drawTelemetry).fCrc = s.fCrc := rfl
@[simp] theorem drawTelemetry_crcAcc : (s.drawTelemetry).crcAcc = s.crcAcc := rfl
@[simp] theorem drawTelemetry_cnt : (s.drawTelemetry).cnt = s.cnt := rfl
@[simp] theorem drawTelemetry_qMem : (s.drawTelemetry).qMem = s.qMem := rfl
@[simp] theorem drawTelemetry_qHead : (s.drawTelemetry).qHead = s.qHead := rfl
@[simp] theorem drawTelemetry_qTail : (s.drawTelemetry).qTail = s.qTail := rfl
@[simp] theorem drawTelemetry_qCount : (s.drawTelemetry).qCount = s.qCount := rfl
@[simp] theorem drawTelemetry_evtValid : (s.drawTelemetry).evtValid = s.evtValid := rfl
@[simp] theorem drawTelemetry_evtAddr : (s.drawTelemetry).evtAddr = s.evtAddr := rfl
@[simp] theorem drawTelemetry_evtTrace : (s.drawTelemetry).evtTrace = s.evtTrace := rfl
@[simp] theorem drawTelemetry_txTrace : (s.drawTelemetry).txTrace = s.txTrace := rfl
@[simp] theorem drawTelemetry_diag : (s.drawTelemetry).diag = s.diag := rfl
@[simp] theorem drawTelemetry_txqCap : (s.drawTelemetry).txqCap = s.txqCap := rfl
@[simp] theorem drawTelemetry_enqTrace : (s.drawTelemetry).enqTrace = s.enqTrace := rfl
@[simp] theorem drawTelemetry_ret : (s.drawTelemetry).ret = s.ret := rfl
@[simp] theorem drawTelemetry_tel : (s.drawTelemetry).tel = s.tel := rfl
@[simp] theorem drawTelemetry_inputs : (s.drawTelemetry).inputs = s.inputs := rfl

/-- A draw is used up exactly when nothing is driven. -/
@[simp] theorem drawTelemetry_telDraws :
    (s.drawTelemetry).telDraws = if s.tel = none then s.telDraws + 1 else s.telDraws := by
  rw [State.drawTelemetry]
  cases s.tel <;> rfl

/-- An accept samples what is driven, and a free draw where nothing is. -/
theorem telemetry_eq_getD : s.telemetry = s.tel.getD (Config.telemetryDraw s.telDraws) := by
  rw [State.telemetry]
  cases s.tel <;> rfl

/-! ### blockReset -/

@[simp] theorem blockReset_st : (s.blockReset).st = .waitHeader := rfl
@[simp] theorem blockReset_fHdr : (s.blockReset).fHdr = 0 := rfl
@[simp] theorem blockReset_fAddr : (s.blockReset).fAddr = 0 := rfl
@[simp] theorem blockReset_fOpc : (s.blockReset).fOpc = 0 := rfl
@[simp] theorem blockReset_fCrc : (s.blockReset).fCrc = 0 := rfl
@[simp] theorem blockReset_crcAcc : (s.blockReset).crcAcc = 0 := rfl
@[simp] theorem blockReset_cnt : (s.blockReset).cnt = 0 := rfl
@[simp] theorem blockReset_qMem : (s.blockReset).qMem = s.qMem := rfl
@[simp] theorem blockReset_qHead : (s.blockReset).qHead = 0 := rfl
@[simp] theorem blockReset_qTail : (s.blockReset).qTail = 0 := rfl
@[simp] theorem blockReset_qCount : (s.blockReset).qCount = 0 := rfl
@[simp] theorem blockReset_evtValid : (s.blockReset).evtValid = false := rfl
@[simp] theorem blockReset_evtAddr : (s.blockReset).evtAddr = 0 := rfl
@[simp] theorem blockReset_evtTrace : (s.blockReset).evtTrace = [] := rfl
@[simp] theorem blockReset_txTrace : (s.blockReset).txTrace = [] := rfl
@[simp] theorem blockReset_diag : (s.blockReset).diag = [] := rfl
@[simp] theorem blockReset_txqCap : (s.blockReset).txqCap = s.txqCap := rfl
@[simp] theorem blockReset_enqTrace : (s.blockReset).enqTrace = [] := rfl
@[simp] theorem blockReset_ret : (s.blockReset).ret = .nothing := rfl
@[simp] theorem blockReset_tel : (s.blockReset).tel = s.tel := rfl
@[simp] theorem blockReset_telDraws : (s.blockReset).telDraws = s.telDraws := rfl
@[simp] theorem blockReset_inputs : (s.blockReset).inputs = s.inputs := rfl

end Sys2Proof.Machine.State
end

