-- ==== Sys2Proof/Laws/Memory.lean ====
section
/-! SUPPORT. The storage array: read after write, and every write keeps the canonical form. -/

namespace Sys2Proof.Machine

theorem Memory.read_of_forall_ne {m : Memory} {i : Nat} (h : ∀ c ∈ m, c.1 ≠ i) : m.read i = 0 := by
  induction m with
  | nil => rfl
  | cons c m ih =>
    obtain ⟨k, v⟩ := c
    have hk : k ≠ i := h (k, v) (by simp)
    simp only [Memory.read, if_neg hk]
    exact ih fun c hc => h c (by simp [hc])

/-- A write leaves every other index alone. -/
theorem Memory.read_write_of_ne (m : Memory) {i j : Nat} (b : Byte) (h : j ≠ i) :
    (m.write i b).read j = m.read j := by
  induction m with
  | nil =>
    simp only [Memory.write]
    split_ifs
    · rfl
    · simp [Memory.read, h.symm]
  | cons c m ih =>
    obtain ⟨k, v⟩ := c
    simp only [Memory.write]
    split_ifs with h1 h2 h3 h4
    · rfl
    · simp [Memory.read, h.symm]
    · subst h3; simp [Memory.read, h.symm]
    · subst h3; simp [Memory.read, h.symm]
    · simp [Memory.read, ih]

/-- A read after a write to the same index gives the byte written. -/
theorem Memory.read_write_self {m : Memory} (hm : m.wf) (i : Nat) (b : Byte) : (m.write i b).read i = b := by
  induction m with
  | nil =>
    simp only [Memory.write]
    split_ifs with hb
    · exact hb.symm
    · simp [Memory.read]
  | cons c m ih =>
    obtain ⟨k, v⟩ := c
    obtain ⟨hp, hz⟩ := hm
    rw [List.pairwise_cons] at hp
    simp only [Memory.write]
    split_ifs with h1 h2 h3 h4
    · rw [h2]
      refine Memory.read_of_forall_ne fun c hc => ?_
      rcases List.mem_cons.mp hc with rfl | hc
      · exact Nat.ne_of_gt h1
      · have := hp.1 c hc
        simp only at this
        omega
    · simp [Memory.read]
    · subst h3
      rw [h4]
      exact Memory.read_of_forall_ne fun c hc => Nat.ne_of_gt (hp.1 c hc)
    · simp [Memory.read]
    · have hk : k ≠ i := fun hki => h3 hki.symm
      simp only [Memory.read, if_neg hk]
      exact ih ⟨hp.2, fun c hc => hz c (by simp [hc])⟩

/-- Every entry after a write was there before or is the byte written. -/
theorem Memory.mem_write {m : Memory} {i : Nat} {b : Byte} {c : Host.Cell} (h : c ∈ m.write i b) :
    c ∈ m ∨ (c = (i, b) ∧ b ≠ 0) := by
  induction m with
  | nil =>
    simp only [Memory.write] at h
    split_ifs at h with hb
    · exact .inl h
    · exact .inr ⟨List.mem_singleton.mp h, hb⟩
  | cons d m ih =>
    obtain ⟨k, v⟩ := d
    simp only [Memory.write] at h
    split_ifs at h with h1 h2 h3 h4
    · exact .inl h
    · rcases List.mem_cons.mp h with rfl | h
      · exact .inr ⟨rfl, h2⟩
      · exact .inl h
    · exact .inl (by simp [h])
    · rcases List.mem_cons.mp h with rfl | h
      · exact .inr ⟨rfl, h4⟩
      · exact .inl (by simp [h])
    · rcases List.mem_cons.mp h with rfl | h
      · exact .inl (by simp)
      · rcases ih h with h | h
        · exact .inl (by simp [h])
        · exact .inr h

/-- A write keeps the canonical form. -/
theorem Memory.write_wf {m : Memory} (hm : m.wf) (i : Nat) (b : Byte) : (m.write i b).wf := by
  induction m with
  | nil =>
    simp only [Memory.write]
    split_ifs with hb
    · exact hm
    · exact ⟨List.pairwise_singleton _ _, by simpa using hb⟩
  | cons c m ih =>
    obtain ⟨k, v⟩ := c
    obtain ⟨hp, hz⟩ := hm
    rw [List.pairwise_cons] at hp
    have hv : v ≠ 0 := hz (k, v) (by simp)
    have hzm : ∀ c ∈ m, c.2 ≠ 0 := fun c hc => hz c (by simp [hc])
    simp only [Memory.write]
    split_ifs with h1 h2 h3 h4
    · exact ⟨List.pairwise_cons.mpr hp, hz⟩
    · refine ⟨List.pairwise_cons.mpr ⟨fun c hc => ?_, List.pairwise_cons.mpr hp⟩, fun c hc => ?_⟩
      · rcases List.mem_cons.mp hc with rfl | hc
        · exact h1
        · exact Nat.lt_trans h1 (hp.1 c hc)
      · rcases List.mem_cons.mp hc with rfl | hc
        · exact h2
        · exact hz c hc
    · exact ⟨hp.2, hzm⟩
    · subst h3
      refine ⟨List.pairwise_cons.mpr ⟨hp.1, hp.2⟩, fun c hc => ?_⟩
      rcases List.mem_cons.mp hc with rfl | hc
      · exact h4
      · exact hzm c hc
    · obtain ⟨ihp, ihz⟩ := ih ⟨hp.2, hzm⟩
      refine ⟨List.pairwise_cons.mpr ⟨fun c hc => ?_, ihp⟩, fun c hc => ?_⟩
      · rcases Memory.mem_write hc with hc | ⟨rfl, -⟩
        · exact hp.1 c hc
        · show k < i
          omega
      · rcases List.mem_cons.mp hc with rfl | hc
        · exact hv
        · exact ihz c hc

/-- A write inside a range keeps the storage inside it. -/
theorem Memory.write_lt {m : Memory} {n i : Nat} {b : Byte} (hm : ∀ c ∈ m, c.1 < n) (hi : i < n) :
    ∀ c ∈ m.write i b, c.1 < n := fun c hc => by
  rcases Memory.mem_write hc with hc | ⟨rfl, -⟩
  · exact hm c hc
  · exact hi

/-! ### The two accesses -/

theorem memRead_of_lt {i : Nat} {s : State} (h : i < s.txqCap) : memRead i s = .next (s.qMem.read i) := by
  simp [memRead, h]

theorem memWrite_of_lt {i : Nat} {s : State} (b : Byte) (h : i < s.txqCap) :
    memWrite i b s = .next { s with qMem := s.qMem.write i b } := by
  simp [memWrite, h]

@[simp] theorem andThen_next {α β : Type} (a : α) (f : α → Result β) : andThen (.next a) f = f a := rfl

@[simp] theorem andThen_fault {α β : Type} (e : Fault) (f : α → Result β) : andThen (.fault e) f = .fault e := rfl

@[simp] theorem andThen_refused {α β : Type} (r : Refusal) (f : α → Result β) :
    andThen (.refused r) f = .refused r := rfl

/-- What comes out of two operations in a row. -/
theorem andThen_eq_next {α β : Type} {o : Result α} {f : α → Result β} {b : β} :
    andThen o f = .next b ↔ ∃ a, o = .next a ∧ f a = .next b := by
  cases o <;> simp [andThen]

end Sys2Proof.Machine
end

