-- ==== Sys2Proof/Laws/Queue.lean ====
section
/-! SUPPORT. What the queue operations can do, said once: enqueue, dequeue, and the enqueue of a list. -/

namespace Sys2Proof.Machine

theorem QueueInv.capacity_pos {s : State} (h : QueueInv s) : 0 < s.txqCap := by
  have : 9 ≤ s.txqCap := h.capacity
  omega

theorem QueueInv.tailInRange {s : State} (h : QueueInv s) : s.qTail < s.txqCap := by
  rw [h.tailPlace]
  exact Nat.mod_lt _ h.capacity_pos

/-- The invariant speaks of the queue registers alone. -/
theorem QueueInv.of_eq {s t : State} (h : QueueInv s) (hm : t.qMem = s.qMem) (hh : t.qHead = s.qHead)
    (ht : t.qTail = s.qTail) (hc : t.qCount = s.qCount) (hcap : t.txqCap = s.txqCap) : QueueInv t := by
  obtain ⟨h1, h2, h3, h4, h5, h6⟩ := h
  exact ⟨hcap ▸ h1, by omega, by omega, by rw [ht, hh, hc, hcap, h4], hm ▸ h5, by rw [hm, hcap]; exact h6⟩

theorem content_of_eq {s t : State} (hm : t.qMem = s.qMem) (hh : t.qHead = s.qHead) (hc : t.qCount = s.qCount)
    (hcap : t.txqCap = s.txqCap) : t.content = s.content := by
  simp [State.content, queueIndex, hm, hh, hc, hcap]

@[simp] theorem content_length (s : State) : s.content.length = s.qCount := by simp [State.content]

/-- Two offsets below the capacity stand at different entries. -/
theorem ring_ne {n h j k : Nat} (hj : j < n) (hk : k < n) (hjk : j ≠ k) : (h + j) % n ≠ (h + k) % n := by
  intro he
  have := Nat.ModEq.add_left_cancel' h (show h + j ≡ h + k [MOD n] from he)
  rw [Nat.ModEq, Nat.mod_eq_of_lt hj, Nat.mod_eq_of_lt hk] at this
  exact hjk this

theorem succMod_ring (n h k : Nat) : succMod n ((h + k) % n) = (h + (k + 1)) % n := by
  simp [succMod, Nat.add_assoc]

/-! ### Enqueue -/

/-- The state after a successful enqueue. -/
def State.push (s : State) (b : Byte) : State := { s with qMem := s.qMem.write s.qTail b }.advanceTail b

/-- What an enqueue can do (R121). -/
theorem enqueue_eq {s : State} (h : QueueInv s) (b : Byte) :
    enqueue b s = if s.qCount < s.txqCap then .next (s.push b, true) else .next (s.raise (.txOverflow b), false) := by
  simp [enqueue, memWrite_of_lt b h.tailInRange, State.push]

theorem push_queueInv {s : State} (h : QueueInv s) (hc : s.qCount < s.txqCap) (b : Byte) : QueueInv (s.push b) where
  capacity := h.capacity
  headInRange := h.headInRange
  countInRange := hc
  tailPlace := by
    show succMod s.txqCap s.qTail = _
    rw [h.tailPlace, succMod_ring]
    rfl
  memoryWf := Memory.write_wf h.memoryWf _ _
  memoryInRange := Memory.write_lt h.memoryInRange h.tailInRange

/-- An enqueued byte becomes the newest of the content. -/
theorem push_content {s : State} (h : QueueInv s) (hc : s.qCount < s.txqCap) (b : Byte) :
    (s.push b).content = s.content ++ [b] := by
  have hidx : ∀ k, queueIndex (s.push b) k = queueIndex s k := fun _ => rfl
  show (List.range (s.qCount + 1)).map _ = _
  rw [List.range_succ, List.map_append]
  congr 1
  · refine List.map_congr_left fun k hk => ?_
    have hk : k < s.qCount := List.mem_range.mp hk
    rw [hidx]
    refine Memory.read_write_of_ne _ _ ?_
    rw [h.tailPlace]
    exact ring_ne (by omega) hc (by omega)
  · rw [List.map_singleton, hidx]
    have hq : queueIndex s s.qCount = s.qTail := h.tailPlace.symm
    rw [hq]
    exact congrArg (fun x => [x]) (Memory.read_write_self h.memoryWf _ _)

theorem raise_queueInv {s : State} (h : QueueInv s) (d : Diag) : QueueInv (s.raise d) :=
  h.of_eq rfl rfl rfl rfl rfl

/-- What the enqueue of a list does (R131), from any state in which the queue invariants hold. -/
theorem enqueueAll_spec (bytes : List Byte) {s : State} (h : QueueInv s) :
    ∃ t, enqueueAll bytes s = .next t ∧ Enqueued bytes s t ∧ QueueInv t := by
  induction bytes generalizing s with
  | nil => exact ⟨s, rfl, ⟨by simp, by simp, by simp [Nat.mod_eq_of_lt h.tailInRange], by simp, by simp,
      fun _ _ => rfl, rfl⟩, h⟩
  | cons b bytes ih =>
    rw [enqueueAll, enqueue_eq h]
    by_cases hc : s.qCount < s.txqCap
    · rw [if_pos hc, andThen_next]
      obtain ⟨t, hr, he, hq⟩ := ih (push_queueInv h hc b)
      obtain ⟨n, hn⟩ : ∃ n, s.free = n + 1 := ⟨s.free - 1, by simp only [State.free]; omega⟩
      have hn' : (s.push b).free = n := by
        have : (s.push b).free = s.txqCap - (s.qCount + 1) := rfl
        simp only [State.free] at hn
        omega
      have hcount := he.count
      have htail := he.tail
      have hcap : (s.push b).txqCap = s.txqCap := rfl
      have hqt : (s.push b).qTail = succMod s.txqCap s.qTail := rfl
      have hqc : (s.push b).qCount = s.qCount + 1 := rfl
      rw [hn'] at hcount htail
      refine ⟨t, hr, ⟨?_, ?_, ?_, ?_, ?_, ?_, ?_⟩, hq⟩
      · rw [he.content, push_content h hc, hn, hn']; simp
      · rw [hcount, hqc, hn, List.length_cons]; omega
      · rw [htail, hqt, hcap, hn, List.length_cons, succMod, Nat.mod_add_mod]
        congr 1
        omega
      · rw [he.dropped, hn, hn', List.drop_succ_cons]; rfl
      · rw [he.accepted, hn, hn', List.take_succ_cons]
        simp [State.push]
      · intro i hi
        rw [hn, List.length_cons] at hi
        rw [he.storage i, State.push, State.advanceTail_qMem]
        · refine Memory.read_write_of_ne _ _ ?_
          have := hi 0 (by omega)
          rwa [Nat.add_zero, Nat.mod_eq_of_lt h.tailInRange] at this
        · intro k hk
          rw [hn'] at hk
          rw [hqt, hcap, succMod, Nat.mod_add_mod]
          have := hi (k + 1) (by omega)
          rwa [Nat.add_comm k 1, ← Nat.add_assoc] at this
      · rw [he.rest]; rfl
    · rw [if_neg hc, andThen_next]
      obtain ⟨t, hr, he, hq⟩ := ih (raise_queueInv h (.txOverflow b))
      have h0 : s.free = 0 := by simp only [State.free]; omega
      have h0' : (s.raise (.txOverflow b)).free = 0 := h0
      refine ⟨t, hr, ⟨?_, ?_, ?_, ?_, ?_, ?_, ?_⟩, hq⟩
      · rw [he.content, h0, h0']; rfl
      · rw [he.count, h0, h0']; simp
      · rw [he.tail, h0, h0']; simp
      · rw [he.dropped, h0, h0']; simp
      · rw [he.accepted, h0, h0']; simp
      · intro i _
        exact he.storage i (by rw [h0']; simp)
      · rw [he.rest]; rfl

/-- What an enqueue leaves alone in every state in which it goes on. -/
theorem enqueue_frame {b : Byte} {s t : State} {ok : Bool} (h : enqueue b s = .next (t, ok)) :
    t = { s with qMem := t.qMem, qTail := t.qTail, qCount := t.qCount, diag := t.diag, enqTrace := t.enqTrace } ∧
      s.qCount ≤ t.qCount := by
  simp only [enqueue, memWrite] at h
  split_ifs at h
  · obtain ⟨rfl, -⟩ := Prod.mk.inj (Host.Outcome.next.inj h)
    exact ⟨rfl, Nat.le_succ _⟩
  · cases h
  · obtain ⟨rfl, -⟩ := Prod.mk.inj (Host.Outcome.next.inj h)
    exact ⟨rfl, Nat.le_refl _⟩

/-- What the enqueue of a list leaves alone in every state in which it goes on. -/
theorem enqueueAll_frame {bytes : List Byte} {s t : State} (h : enqueueAll bytes s = .next t) :
    t = { s with qMem := t.qMem, qTail := t.qTail, qCount := t.qCount, diag := t.diag, enqTrace := t.enqTrace } ∧
      s.qCount ≤ t.qCount := by
  induction bytes generalizing s with
  | nil => cases h; exact ⟨rfl, Nat.le_refl _⟩
  | cons b bytes ih =>
    obtain ⟨⟨u, ok⟩, hu, ht⟩ := andThen_eq_next.mp h
    obtain ⟨h1, l1⟩ := enqueue_frame hu
    obtain ⟨h2, l2⟩ := ih ht
    exact ⟨by rw [h2, h1], Nat.le_trans l1 l2⟩

/-- A full queue drops a whole list, one classification a byte, and nothing else changes (R130). -/
theorem enqueueAll_full {s : State} (h : s.txqCap ≤ s.qCount) (bytes : List Byte) :
    enqueueAll bytes s = .next { s with diag := s.diag ++ bytes.map Diag.txOverflow } := by
  induction bytes generalizing s with
  | nil => simp [enqueueAll]
  | cons b bytes ih =>
    have hb : enqueue b s = .next (s.raise (.txOverflow b), false) := by simp [enqueue, Nat.not_lt.mpr h]
    rw [enqueueAll, hb, andThen_next, ih (s := s.raise (.txOverflow b)) h]
    simp [State.raise]

/-! ### Dequeue -/

/-- What a dequeue can do (R122). -/
theorem dequeue_eq {s : State} (h : QueueInv s) :
    dequeue s = if 0 < s.qCount then .next (s.advanceHead, s.qMem.read s.qHead, true)
      else .next (s.raise .popEmpty, 0x00, false) := by
  simp [dequeue, memRead_of_lt h.headInRange]

theorem advanceHead_queueInv {s : State} (h : QueueInv s) (hc : 0 < s.qCount) : QueueInv s.advanceHead where
  capacity := h.capacity
  headInRange := Nat.mod_lt _ h.capacity_pos
  countInRange := by
    have := h.countInRange
    show s.qCount - 1 ≤ s.txqCap
    omega
  tailPlace := by
    show s.qTail = (succMod s.txqCap s.qHead + (s.qCount - 1)) % s.txqCap
    rw [h.tailPlace, succMod, Nat.mod_add_mod]
    congr 1
    omega
  memoryWf := h.memoryWf
  memoryInRange := h.memoryInRange

/-- A dequeue takes the oldest byte off the content. -/
theorem advanceHead_content {s : State} (h : QueueInv s) (hc : 0 < s.qCount) :
    s.content = s.qMem.read s.qHead :: s.advanceHead.content := by
  obtain ⟨n, hn⟩ : ∃ n, s.qCount = n + 1 := ⟨s.qCount - 1, by omega⟩
  have h0 : queueIndex s 0 = s.qHead := by simp [queueIndex, Nat.mod_eq_of_lt h.headInRange]
  have hs : s.advanceHead.qCount = n := by simp [hn]
  rw [State.content, State.content, hn, hs, List.range_succ_eq_map, List.map_cons, h0, List.map_map]
  congr 1
  refine List.map_congr_left fun k _ => ?_
  have : queueIndex s (k + 1) = queueIndex s.advanceHead k := by
    simp only [queueIndex, State.advanceHead_qHead, State.advanceHead_txqCap, succMod, Nat.mod_add_mod]
    congr 1
    omega
  simp [this]

end Sys2Proof.Machine
end

