-- ==== Sys2Proof/Laws/Exec.lean ====
section
/-! SUPPORT. What the rules and the events can do, said once for each. -/

namespace Sys2Proof.Machine

/-! ### Accept (R177) -/

/-- What an accept does, from any state in which the queue invariants hold. -/
theorem ruleAccept_spec {s : State} (h : QueueInv s) :
    ∃ u, ruleAccept s = .next (u.emitEvent s.fAddr).toWaitHeader ∧
      Enqueued s.response s.drawTelemetry u ∧ QueueInv u := by
  obtain ⟨u, hr, he, hq⟩ := enqueueAll_spec s.response (h.of_eq (t := s.drawTelemetry) rfl rfl rfl rfl rfl)
  refine ⟨u, ?_, he, hq⟩
  have ha : u.fAddr = s.fAddr := by rw [he.rest]; rfl
  have hr' : enqueueAll (buildResponse s.fAddr s.telemetry.temperature s.telemetry.level s.telemetry.frequency)
      s.drawTelemetry = .next u := hr
  simp only [ruleAccept, hr', andThen_next, ha]

/-- What an accept leaves alone in every state in which it goes on. -/
theorem ruleAccept_frame {s t : State} (h : ruleAccept s = .next t) :
    t = { s with
      st := .waitHeader, cnt := 0, evtValid := true, evtAddr := s.fAddr, evtTrace := s.evtTrace ++ [s.fAddr]
      qMem := t.qMem, qTail := t.qTail, qCount := t.qCount, diag := t.diag, enqTrace := t.enqTrace
      telDraws := s.drawTelemetry.telDraws } ∧ s.qCount ≤ t.qCount := by
  obtain ⟨u, hu, ht⟩ := andThen_eq_next.mp h
  obtain ⟨h1, h2⟩ := enqueueAll_frame hu
  cases ht
  refine ⟨?_, h2⟩
  rw [h1]
  rfl

/-- An accept into a full queue drops the whole response (R130). -/
theorem ruleAccept_full {s : State} (h : s.txqCap ≤ s.qCount) :
    ruleAccept s = .next { s with
      st := .waitHeader, cnt := 0, evtValid := true, evtAddr := s.fAddr, evtTrace := s.evtTrace ++ [s.fAddr]
      diag := s.diag ++ s.response.map Diag.txOverflow, telDraws := s.drawTelemetry.telDraws } := by
  rw [ruleAccept, enqueueAll_full (s := s.drawTelemetry) h]
  rfl

/-! ### Receive (R171) -/

/-- What a received byte can do: one of the rules R172 to R178. -/
theorem rxDispatch_cases (b : Byte) (s : State) :
    (s.st = .waitHeader ∧ b = Config.reqSync ∧ rxDispatch b s = .next (s.takeHeader b)) ∨
    (s.st = .waitHeader ∧ b ≠ Config.reqSync ∧ rxDispatch b s = .next (s.raise (.syncLoss b))) ∨
    (s.st = .waitAddress ∧ rxDispatch b s = .next (s.takeAddress b)) ∨
    (s.st = .waitOpcode ∧ rxDispatch b s = .next (s.takeOpcode b)) ∨
    (s.st = .waitCrc ∧ s.frameOk b = true ∧ rxDispatch b s = ruleAccept (s.takeCrc b)) ∨
    (s.st = .waitCrc ∧ s.frameOk b = false ∧
      rxDispatch b s = .next (((s.takeCrc b).raise (s.rejection b)).toWaitHeader)) := by
  have hok : (s.takeCrc b).frameOk b = s.frameOk b := rfl
  rcases hs : s.st with _ | _ | _ | _
  · by_cases hb : b = Config.reqSync
    · exact .inl ⟨rfl, hb, by simp [rxDispatch, hs, hb]⟩
    · exact .inr (.inl ⟨rfl, hb, by simp [rxDispatch, hs, hb, ruleSyncLoss]⟩)
  · exact .inr (.inr (.inl ⟨rfl, by simp [rxDispatch, hs]⟩))
  · exact .inr (.inr (.inr (.inl ⟨rfl, by simp [rxDispatch, hs]⟩)))
  · rcases hf : s.frameOk b with _ | _
    · refine .inr (.inr (.inr (.inr (.inr ⟨rfl, rfl, ?_⟩))))
      simp only [rxDispatch, hs, ruleCrc, hok, hf]
      rfl
    · refine .inr (.inr (.inr (.inr (.inl ⟨rfl, rfl, ?_⟩))))
      simp only [rxDispatch, hs, ruleCrc, hok, hf, if_true]

/-- A received byte that goes on either accepts, or leaves the queue, the event and what is driven alone. -/
theorem rxDispatch_next {b : Byte} {s t : State} (h : rxDispatch b s = .next t) :
    (s.accepts b ∧ ruleAccept (s.takeCrc b) = .next t) ∨
    (¬ s.accepts b ∧ t = { s with
      st := t.st, fHdr := t.fHdr, fAddr := t.fAddr, fOpc := t.fOpc, fCrc := t.fCrc, crcAcc := t.crcAcc, cnt := t.cnt
      diag := t.diag }) := by
  rcases rxDispatch_cases b s with ⟨hs, _, hr⟩ | ⟨hs, _, hr⟩ | ⟨hs, hr⟩ | ⟨hs, hr⟩ | ⟨hs, hf, hr⟩ | ⟨hs, hf, hr⟩
  case inr.inr.inr.inr.inl => exact .inl ⟨⟨hs, hf⟩, hr.symm.trans h⟩
  all_goals
    obtain rfl := Host.Outcome.next.inj (hr.symm.trans h)
    exact .inr ⟨by simp [State.accepts, *], rfl⟩

/-- Every row of RX_BYTE does what RX_BYTE does with its byte (R81). -/
theorem exec_of_receivedByte {i : Instr} {d : Byte} (h : receivedByte i = some d) (s : State) :
    exec i s = execRxByte d s := by
  have hok : ∀ b, (s.clearPulse.takeCrc b).frameOk b = s.frameOk b := fun _ => rfl
  cases i <;> simp only [receivedByte, Option.some.injEq, reduceCtorEq] at h <;> subst h <;> simp only [exec]
  · simp only [execRxByteSync]
    split_ifs with hc
    · simp [execRxByte, rxDispatch, hc]
    · rfl
  · simp only [execRxByteSyncLoss]
    split_ifs with hc
    · simp [execRxByte, rxDispatch, hc.1, hc.2]
    · rfl
  · simp only [execRxByteAddress]
    split_ifs with hc
    · simp [execRxByte, rxDispatch, hc]
    · rfl
  · simp only [execRxByteOpcode]
    split_ifs with hc
    · simp [execRxByte, rxDispatch, hc]
    · rfl
  · simp only [execRxByteCrcAccept]
    split_ifs with hc
    · simp [execRxByte, rxDispatch, hc.1, ruleCrc, hok, hc.2]
    · rfl
  · simp only [execRxByteCrcReject]
    split_ifs with hc
    · simp [execRxByte, rxDispatch, hc.1, ruleCrc, hok, hc.2]
    · rfl

/-! ### Pop (R202) -/

/-- What a pop does, from any state in which the queue invariants hold. -/
theorem ruleTxPop_eq {s : State} (h : QueueInv s) :
    ruleTxPop s = .next (if 0 < s.qCount
      then (s.advanceHead.recordTx (s.qMem.read s.qHead)).returning (.popped (s.qMem.read s.qHead) true)
      else (s.raise .popEmpty).returning (.popped 0 false)) := by
  rw [ruleTxPop, dequeue_eq h]
  split_ifs <;> rfl

/-- What a pop can do in every state in which it goes on. -/
theorem ruleTxPop_cases {s t : State} (h : ruleTxPop s = .next t) :
    (0 < s.qCount ∧
      t = (s.advanceHead.recordTx (s.qMem.read s.qHead)).returning (.popped (s.qMem.read s.qHead) true)) ∨
    (s.qCount = 0 ∧ t = (s.raise .popEmpty).returning (.popped 0 false)) := by
  simp only [ruleTxPop, dequeue, memRead] at h
  split_ifs at h with h1 h2
  · cases h
    exact .inl ⟨h1, rfl⟩
  · cases h
  · cases h
    exact .inr ⟨Nat.eq_zero_of_not_pos h1, rfl⟩

/-! ### Cycles and frames -/

@[simp] theorem andThen_self {α : Type} (o : Result α) : (andThen o fun a => .next a) = o := by cases o <;> rfl

/-- What a cycle's telemetry ports do: they write `tel` where they drive a reading. -/
theorem present_eq (s : State) (t : Option Telemetry) : s.present t = { s with tel := t.or s.tel } := by cases t <;> rfl

/-- A cycle with reset is RESET. -/
theorem clockCycle_of_rst {p : Ports} (h : p.rst = true) (s : State) : clockCycle p s = .next s.blockReset := by
  simp [clockCycle, h]

/-- A cycle without reset: its telemetry is presented and the pulse falls, then the pop, then the receive side; the
transmit notice adds nothing (R204, R206). -/
theorem clockCycle_of_not_rst {p : Ports} (h : p.rst = false) (s : State) :
    clockCycle p s =
      andThen (if p.txPop then ruleTxPop (s.present p.telemetry).clearPulse else .next (s.present p.telemetry).clearPulse)
        (cycleReceive p) := by
  simp [clockCycle, h, ruleTxDone]

/-- Received bytes are RX_BYTE events one after another (R59). -/
theorem receiveBytes_eq_execAll (bytes : List Byte) (s : State) :
    receiveBytes bytes s = execAll (bytes.map Instr.rxByte) s := by
  induction bytes generalizing s with
  | nil => rfl
  | cons b bytes ih =>
    simp only [receiveBytes, List.map_cons, execAll, exec]
    cases execRxByte b s <;> simp [ih]

/-- The instructions that present a frame are received bytes. -/
theorem exec_of_presentsFrame {i : Instr} (h : presentsFrame i = true) :
    ∃ bytes, ∀ s, exec i s = receiveBytes bytes s := by
  cases i <;> simp only [presentsFrame, Bool.false_eq_true] at h
  · exact ⟨_, fun _ => rfl⟩
  · exact ⟨_, fun _ => rfl⟩

end Sys2Proof.Machine
end

