-- ==== Sys2Proof/Laws/PerInstr.lean ====
section
/-! SUPPORT. For every instruction: decoding what the encoder writes for it gives the instruction its word stands for. -/

namespace Sys2Proof.Laws.EncodeDecode

/-- Every word the encoder writes for a well-formed `i` decodes to `decodedAs i`. -/
def Statement (i : Instr) : Prop := i.wellFormed = true → ∀ r, encode i = some r → decode r = .ok (decodedAs i)

/-- An instruction whose word is known. -/
theorem of_word {i : Instr} {w : RawWord} (he : encode i = some w) (hd : decode w = .ok (decodedAs i)) : Statement i := by
  intro _ r hr
  rw [he] at hr
  cases hr
  exact hd

/-- An instruction without a word. -/
theorem of_internal {i : Instr} (he : encode i = none) : Statement i := by
  intro _ r hr
  rw [he] at hr
  cases hr

/-- A received byte's word. -/
theorem decode_rxByte (d : Byte) : decode (.event (eventWord 1 d)) = .ok (.rxByte d) := by
  simp [decode, decodeEvent]

theorem readTelemetry (address crc : Byte) : Statement (.readTelemetry address crc) :=
  of_word rfl rfl

theorem response (address temperature levelLo levelHi frequencyLo frequencyHi crc : Byte) : Statement (.response address temperature levelLo levelHi frequencyLo frequencyHi crc) :=
  of_word rfl rfl

theorem idle : Statement .idle :=
  of_word rfl rfl

theorem rxByte (d : Byte) : Statement (.rxByte d) :=
  of_word rfl (decode_rxByte _)

theorem rxByteSync : Statement .rxByteSync :=
  of_word rfl (decode_rxByte _)

theorem rxByteSyncLoss (d : Byte) : Statement (.rxByteSyncLoss d) :=
  of_word rfl (decode_rxByte _)

theorem rxByteAddress (d : Byte) : Statement (.rxByteAddress d) :=
  of_word rfl (decode_rxByte _)

theorem rxByteOpcode (d : Byte) : Statement (.rxByteOpcode d) :=
  of_word rfl (decode_rxByte _)

theorem rxByteCrcAccept (d : Byte) : Statement (.rxByteCrcAccept d) :=
  of_word rfl (decode_rxByte _)

theorem rxByteCrcReject (d : Byte) : Statement (.rxByteCrcReject d) :=
  of_word rfl (decode_rxByte _)

theorem lineErr : Statement .lineErr :=
  of_word rfl rfl

theorem txPop : Statement .txPop :=
  of_word rfl rfl

theorem txDone : Statement .txDone :=
  of_word rfl rfl

theorem reset : Statement .reset :=
  of_word rfl rfl

theorem reservedKind6 (x : Byte) : Statement (.reservedKind6 x) :=
  fun h => absurd h Bool.false_ne_true

theorem reservedKind7 (x : Byte) : Statement (.reservedKind7 x) :=
  fun h => absurd h Bool.false_ne_true

theorem reservedData (kind : BitVec 3) (x : Byte) : Statement (.reservedData kind x) :=
  fun h => absurd h Bool.false_ne_true

theorem crc8Step (byte crc : Byte) : Statement (.crc8Step byte crc) :=
  of_internal rfl

theorem crc8 (bytes : List Byte) : Statement (.crc8 bytes) :=
  of_internal rfl

theorem enqueue (b : Byte) : Statement (.enqueue b) :=
  of_internal rfl

theorem dequeue : Statement .dequeue :=
  of_internal rfl

theorem isEmpty : Statement .isEmpty :=
  of_internal rfl

theorem len : Statement .len :=
  of_internal rfl

theorem isFull : Statement .isFull :=
  of_internal rfl

theorem enqueueFrame (r : List Byte) : Statement (.enqueueFrame r) :=
  of_internal rfl

theorem buildResponse (address temperature : Byte) (level frequency : U16) : Statement (.buildResponse address temperature level frequency) :=
  of_internal rfl

end Sys2Proof.Laws.EncodeDecode
end

