-- ==== Sys2Proof/Tests/Slice0.lean ====
section
/-! SUPPORT. The model's own tests. Expected results are the vectors of 95_test_vectors.md (their ids in the names' comments)
or words written out from 30_encoding.md. Each runs one instruction or one cycle on a small state. -/

namespace Sys2Proof.Tests

open Sys2Proof.Machine

/-- The outcome is a next state that passes `p`. -/
def answers (o : Result State) (p : State → Bool) : Bool :=
  match o with
  | .next t => p t
  | .fault _ => false
  | .refused _ => false

/-- The outcome is this refusal. -/
def refuses (o : Result State) (r : Refusal) : Bool :=
  match o with
  | .next _ => false
  | .fault _ => false
  | .refused q => q == r

/-- The reset state with `tel 0, 0, 0`. -/
def quiet : State := { State.reset with tel := some { temperature := 0, level := 0, frequency := 0 } }

/-- After `31 12 06` (V-FSM-7), the pulse of an earlier accept still up. -/
def beforeCrc : State :=
  { quiet with st := .waitCrc, cnt := 3, crcAcc := 0xD5, fHdr := 0x31, fAddr := 0x12, fOpc := 0x06, evtValid := true }

/-- V-Q-5: nine bytes in a queue of nine. -/
def full : State :=
  { beforeCrc with txqCap := 9, qCount := 9, qMem := [(0, 0x3E), (1, 0x12), (2, 0x06), (8, 0x76)] }

/-- V-Q-6: one byte at the last entry of nine. -/
def lastEntry : State :=
  { quiet with txqCap := 9, qHead := 8, qTail := 0, qCount := 1, qMem := [(8, 0x76)], evtValid := true }

def response12 : List Byte := [0x3E, 0x12, 0x06, 0, 0, 0, 0, 0, 0x76]

/-- R22 and R231: the encodings of the parser state and of the classifications. -/
theorem test_codes : [ParserState.waitHeader, .waitAddress, .waitOpcode, .waitCrc].map ParserState.code = [0, 1, 2, 3] ∧
    [Diag.syncLoss 0, .rejectLength 0, .rejectOpcode 0, .rejectCrc 0 0, .lineFault .waitCrc 0, .txOverflow 0, .popEmpty].map
      Diag.code = [1, 2, 3, 4, 5, 6, 7] := by decide

/-! ### Ill-formed terms -/

theorem test_wf_syncLoss_of_sync : (Instr.rxByteSyncLoss 0x31).wellFormed = false := by decide
theorem test_wf_syncLoss : (Instr.rxByteSyncLoss 0x30).wellFormed = true := by decide
theorem test_wf_enqueueFrame_short : (Instr.enqueueFrame [0x3E]).wellFormed = false := by decide
theorem test_wf_enqueueFrame_nine : (Instr.enqueueFrame response12).wellFormed = true := by decide
theorem test_wf_reservedKind6 : (Instr.reservedKind6 0).wellFormed = false := by decide
theorem test_wf_reservedKind7 : (Instr.reservedKind7 0xFF).wellFormed = false := by decide
theorem test_wf_reservedData : (Instr.reservedData 0 1).wellFormed = false := by decide

/-! ### Decoding: words written out bit by bit from R80, R71, R74 -/

theorem test_decode_idle : decodeTableWord 11 0b000_00000000 = some .idle := by decide
theorem test_decode_rxByte : decodeTableWord 11 0b001_10100101 = some (.rxByte 0xA5) := by decide
theorem test_decode_sync_shares_rxByte : decodeTableWord 11 0b001_00110001 = some (decodedAs .rxByteSync) := by decide
theorem test_decode_rows_share_rxByte :
    [Instr.rxByteSyncLoss 0xA5, .rxByteAddress 0xA5, .rxByteOpcode 0xA5, .rxByteCrcAccept 0xA5, .rxByteCrcReject 0xA5].map
      decodedAs = List.replicate 5 (.rxByte 0xA5) := by decide
theorem test_decode_lineErr : decodeTableWord 11 0b010_00000000 = some .lineErr := by decide
theorem test_decode_txPop : decodeTableWord 11 0b011_00000000 = some .txPop := by decide
theorem test_decode_txDone : decodeTableWord 11 0b100_00000000 = some .txDone := by decide
theorem test_decode_reset : decodeTableWord 11 0b101_00000000 = some .reset := by decide
theorem test_decode_kind6 : decodeEvent 0b110_00000101 = .error (.reservedKind6 5) := by decide
theorem test_decode_kind7 : decodeEvent 0b111_11111111 = .error (.reservedKind7 0xFF) := by decide
theorem test_decode_data : decodeEvent 0b011_11111111 = .error (.reservedData 3 0xFF) := by decide
theorem test_decode_readTelemetry :
    decodeTableWord 32 0b00110001_00010010_00000110_11010101 = some (.readTelemetry 0x12 0xD5) := by decide
theorem test_decode_response :
    decodeTableWord 72 0b00111110_00110001_00000110_11011000_11110100_00000001_01010000_11000011_00110101 =
      some (.response 0x31 0xD8 0xF4 0x01 0x50 0xC3 0x35) := by decide
theorem test_decode_wrong_sync : decodeTableWord 32 0xAA1206D5 = none := by decide
theorem test_internal_has_no_word :
    [Instr.crc8Step 1 2, .crc8 [], .enqueue 3, .dequeue, .isEmpty, .len, .isFull, .enqueueFrame [], .buildResponse 1 2 3 4].map
      encode = List.replicate 9 none := by decide

/-- R84: `frame 0x12` stands for the words `131 112 106 1D5`. -/
theorem test_frame_line : ProgramLine.expand 0 (.frame 0x12) =
    [.word (.event 0x131), .word (.event 0x112), .word (.event 0x106), .word (.event 0x1D5)] := by decide

/-- R84: `drain` pops once more than the queue holds. -/
theorem test_drain_line : ProgramLine.expand 2 .drain = List.replicate 3 (.word (.event 0x300)) := by decide

/-! ### Frames and received bytes -/

-- W-2
theorem test_readTelemetry_accepted : answers (exec (.readTelemetry 0x12 0xD5) quiet) (fun t =>
    t.content == response12 && t.evtTrace == [0x12] && t.evtValid && t.qTail == 9 && t.crcAcc == 0xD5 && t.diag == [])
    = true := by decide
-- W-3
theorem test_readTelemetry_rejected : answers (exec (.readTelemetry 0x12 0x2A) quiet) (fun t =>
    t == { quiet with fHdr := 0x31, fAddr := 0x12, fOpc := 0x06, fCrc := 0x2A, crcAcc := 0xD5
                      diag := [.rejectCrc 0xD5 0x2A] }) = true := by decide
-- R85
theorem test_response_is_noise : answers (exec (.response 0x12 0 0 0 0 0 0x76) quiet) (fun t =>
    t == { quiet with diag := response12.map Diag.syncLoss }) = true := by decide
-- V-FSM-1
theorem test_rxByte : answers (exec (.rxByte 0x31) quiet) (fun t =>
    t == { quiet with st := .waitAddress, cnt := 1, crcAcc := 0xE0, fHdr := 0x31 }) = true := by decide
-- V-FSM-13, the fourth byte
theorem test_rxByte_sync_as_crc : answers (exec (.rxByte 0x31) beforeCrc) (fun t =>
    t.st == .waitHeader && t.cnt == 0 && t.fCrc == 0x31 && t.diag == [.rejectCrc 0xD5 0x31]) = true := by decide
theorem test_sync : answers (exec .rxByteSync quiet) (fun t =>
    t.st == .waitAddress && t.cnt == 1 && t.crcAcc == 0xE0 && t.fHdr == 0x31) = true := by decide
-- V-FSM-3
theorem test_syncLoss : answers (exec (.rxByteSyncLoss 0x3E) quiet) (fun t =>
    t == { quiet with diag := [.syncLoss 0x3E] }) = true := by decide
-- V-FSM-6, the second byte
theorem test_address : answers
    (exec (.rxByteAddress 0x31) { quiet with st := .waitAddress, cnt := 1, crcAcc := 0xE0, fHdr := 0x31 })
    (fun t => t.st == .waitOpcode && t.cnt == 2 && t.crcAcc == 0x09 && t.fAddr == 0x31) = true := by decide
-- V-FSM-8, the third byte
theorem test_opcode : answers
    (exec (.rxByteOpcode 0x07) { quiet with st := .waitOpcode, cnt := 2, crcAcc := 0xC8, fHdr := 0x31, fAddr := 0x12 })
    (fun t => t.st == .waitCrc && t.cnt == 3 && t.crcAcc == 0x8B && t.fOpc == 0x07) = true := by decide
-- V-FSM-9, the fourth byte
theorem test_accept : answers (exec (.rxByteCrcAccept 0xD5) beforeCrc) (fun t =>
    t.content == response12 && t.fCrc == 0xD5 && t.evtTrace == [0x12] && t.evtAddr == 0x12 && t.cnt == 0) = true := by
  decide
-- W-7, the last byte of the second frame
theorem test_accept_full : answers (exec (.rxByteCrcAccept 0xD5) full) (fun t =>
    t.content == response12 && t.evtValid && t.qCount == 9 && t.qTail == 0 && t.diag == response12.map Diag.txOverflow)
    = true := by decide
-- V-FSM-12, the fourth byte
theorem test_reject : answers (exec (.rxByteCrcReject 0xD5) { beforeCrc with fOpc := 0x07, crcAcc := 0x8B }) (fun t =>
    t.st == .waitHeader && t.diag == [.rejectOpcode 0x07] && t.evtTrace == [] && t.qCount == 0 && !t.evtValid)
    = true := by decide
-- V-LE-3, the fault
theorem test_lineErr : answers (exec .lineErr beforeCrc) (fun t =>
    t.st == .waitHeader && t.cnt == 0 && t.crcAcc == 0xD5 && t.fOpc == 0x06 && t.diag == [.lineFault .waitCrc 3])
    = true := by decide

/-! ### Transport and reset -/

-- V-Q-6 as a pop
theorem test_txPop : answers (exec .txPop lastEntry) (fun t =>
    t.qHead == 0 && t.qCount == 0 && t.txTrace == [0x76] && t.ret == .popped 0x76 true && t.txData == 0) = true := by decide
-- V-Q-2 as a pop
theorem test_txPop_empty : answers (exec .txPop quiet) (fun t =>
    t == { quiet with ret := .popped 0 false, diag := [.popEmpty] }) = true := by decide
-- V-CYC-9
theorem test_txDone : answers (exec .txDone lastEntry) (fun t => t == { lastEntry with evtValid := false }) = true := by decide
-- V-CYC-6
theorem test_idle : answers (exec .idle full) (fun t => t == { full with evtValid := false }) = true := by decide
-- V-RST-1
theorem test_reset : answers (exec .reset full) (fun t => t == { quiet with txqCap := 9, qMem := full.qMem }) = true := by
  decide
theorem test_reserved_refused :
    (refuses (exec (.reservedKind6 1) quiet) (.reservedKind6 1) && refuses (exec (.reservedKind7 2) quiet) (.reservedKind7 2) &&
      refuses (exec (.reservedData 0 1) quiet) (.reservedData 0 1)) = true := by decide
-- V-CYC-2, the cycle with the pop and the accept
theorem test_cycle_pop_accept : answers
    (clockCycle { txPop := true, rxValid := true, rxData := 0x76 } { lastEntry with
      st := .waitCrc, cnt := 3, crcAcc := 0x76, fAddr := 0x12, fOpc := 0x06 })
    (fun t => t.content == response12 && t.txTrace == [0x76] && t.qHead == 0 && t.qTail == 0) = true := by decide
-- R214 with V-COD-1, second row: the accepting cycle's own telemetry, and not what was driven before
theorem test_cycle_samples_its_telemetry : answers
    (clockCycle { rxValid := true, rxData := 0xD5, telemetry := some { temperature := 0x19, level := 0x1234, frequency := 0xABCD } }
      beforeCrc)
    (fun t => t.content == [0x3E, 0x12, 0x06, 0x19, 0x34, 0x12, 0xCD, 0xAB, 0x08]) = true := by decide
-- V-CYC-3, the first cycle
theorem test_cycle_fault_drops_byte : answers (clockCycle { rxErr := true, rxValid := true, rxData := 0x31 } quiet) (fun t =>
    t == { quiet with diag := [.lineFault .waitHeader 0] }) = true := by decide

/-! ### Internal operations -/

-- V-CRC-3
theorem test_crc8Step : answers (exec (.crc8Step 0x12 0xE0) quiet) (fun t => t.ret == .byte 0xC8) = true := by decide
-- V-CRC-17
theorem test_crc8 : answers (exec (.crc8 [0x3E, 0x12, 0x06, 0x19, 0x34, 0x12, 0xCD, 0xAB]) quiet) (fun t =>
    t.ret == .byte 0x08) = true := by decide
-- V-Q-4
theorem test_enqueue_wraps : answers (exec (.enqueue 0x76) { full with qTail := 8, qCount := 8, qMem := full.qMem.take 3 })
    (fun t => t.content == response12 && t.qTail == 0 && t.qFull && t.ret == .ok true) = true := by decide
-- V-Q-5
theorem test_enqueue_full : answers (exec (.enqueue 0x3E) full) (fun t =>
    t == { full with ret := .ok false, diag := [.txOverflow 0x3E] }) = true := by decide
-- V-Q-6
theorem test_dequeue_wraps : answers (exec .dequeue lastEntry) (fun t =>
    t == { lastEntry with qHead := 0, qCount := 0, ret := .popped 0x76 true }) = true := by decide
-- V-Q-2
theorem test_dequeue_empty : answers (exec .dequeue quiet) (fun t =>
    t == { quiet with ret := .popped 0 false, diag := [.popEmpty] }) = true := by decide
-- V-Q-12
theorem test_isEmpty : answers (exec .isEmpty full) (fun t => t.ret == .flag false) = true := by decide
theorem test_len : answers (exec .len full) (fun t => t.ret == .count 9) = true := by decide
theorem test_isFull : answers (exec .isFull full) (fun t => t.ret == .flag true) = true := by decide
-- V-Q-7
theorem test_enqueueFrame_wraps : answers (exec (.enqueueFrame response12) { quiet with txqCap := 9, qHead := 7, qTail := 7 })
    (fun t => t.content == response12 && t.qTail == 7 && t.qMem.read 7 == 0x3E && t.qMem.read 6 == 0x76) = true := by decide
-- V-Q-9
theorem test_enqueueFrame_truncates : answers
    (exec (.enqueueFrame [0x3E, 0x04, 0x06, 0x03, 0x03, 0, 0x03, 0, 0x90]) { quiet with qHead := 5, qTail := 0, qCount := 27 })
    (fun t => t.qTail == 5 && t.qCount == 32 && t.content.drop 27 == [0x3E, 0x04, 0x06, 0x03, 0x03] &&
      t.diag == [.txOverflow 0, .txOverflow 0x03, .txOverflow 0, .txOverflow 0x90]) = true := by decide
-- V-COD-1, second row
theorem test_buildResponse : answers (exec (.buildResponse 0x12 0x19 0x1234 0xABCD) quiet) (fun t =>
    t.ret == .frame [0x3E, 0x12, 0x06, 0x19, 0x34, 0x12, 0xCD, 0xAB, 0x08]) = true := by decide
-- V-COD-3
theorem test_controllerDecode : controllerDecode [0x3E, 0x31, 0x06, 0xD8, 0xF4, 0x01, 0x50, 0xC3, 0x35] =
    some { address := 0x31, temperature := -40, level := 500, frequency := 50000 } := by decide

/-! ### Witnesses: every statement's hypotheses are met together by some state -/

theorem quiet_queue : QueueInv quiet :=
  { capacity := by decide, headInRange := by decide, countInRange := by decide, tailPlace := by decide
    memoryWf := by decide, memoryInRange := by decide }

theorem full_queue : QueueInv full :=
  { capacity := by decide, headInRange := by decide, countInRange := by decide, tailPlace := by decide
    memoryWf := by decide, memoryInRange := by decide }

theorem lastEntry_queue : QueueInv lastEntry :=
  { capacity := by decide, headInRange := by decide, countInRange := by decide, tailPlace := by decide
    memoryWf := by decide, memoryInRange := by decide }

theorem beforeCrc_queue : QueueInv beforeCrc := quiet_queue.of_eq rfl rfl rfl rfl rfl

theorem beforeCrc_accepts : beforeCrc.accepts 0xD5 := by simp only [State.accepts]; decide

/-- A state of a run: one response queued by an accept, its first byte transmitted. -/
def running : State :=
  { beforeCrc with
    qHead := 1, qTail := 9, qCount := 8, qMem := [(0, 0x3E), (1, 0x12), (2, 0x06), (8, 0x76)]
    evtAddr := 0x12, evtTrace := [0x12], txTrace := [0x3E], enqTrace := response12 }

theorem running_inv : EngineInv running where
  queue :=
    { capacity := by decide, headInRange := by decide, countInRange := by decide, tailPlace := by decide
      memoryWf := by decide, memoryInRange := by decide }
  parser := { countOfState := by decide, headerStored := by decide, crcOfReceived := by decide }
  record := { fifo := by decide, latestEvent := by decide, pulseHasEvent := by decide, noLengthReject := by decide }

theorem witness_StepRunsDecodedInstruction :
    9 ≤ { quiet with inputs := [.word (.event 0x131)] : State }.txqCap ∧ decode (.event 0x131) = .ok (.rxByte 0x31) ∧
      decodeTableWord 16 0x131 = some (.rxByte 0x31) := by decide

theorem witness_UnknownFramesAreReceivedByteByByte :
    9 ≤ quiet.txqCap ∧ decode (.frame [0xAA]) = .error (.notATableFrame [0xAA]) ∧
      decode (.frame []) = .error (.notATableFrame []) := by decide

theorem witness_StepRunsDecodedInstruction_cycle :
    9 ≤ { quiet with inputs := [.cycle { txPop := true }] : State }.txqCap ∧
      { quiet with inputs := [.cycle { txPop := true }] : State }.inputs = .cycle { txPop := true } :: [] ∧
      { quiet with inputs := [.tel none] : State }.inputs = .tel none :: [] := by decide

theorem witness_StepRunsDecodedInstruction_idle : 9 ≤ quiet.txqCap ∧ quiet.inputs = [] := by decide

theorem witness_CapacityIsFixedAndChecked :
    { quiet with txqCap := 8 : State }.txqCap < 9 ∧ exec .idle quiet = .next quiet ∧ step quiet = .next quiet :=
  ⟨by decide, rfl, rfl⟩

theorem witness_ReservedEventWordsAreRefused :
    9 ≤ quiet.txqCap ∧ eventKind 0x600 = 6 ∧ eventKind 0x7FF = 7 ∧
      (eventKind 0x001 ≠ 1 ∧ eventKind 0x001 < 6 ∧ eventData 0x001 ≠ 0) ∧
      (eventKind 0x5FF ≠ 1 ∧ eventKind 0x5FF < 6 ∧ eventData 0x5FF ≠ 0) := by decide

theorem witness_EventWordsDecodeByKind :
    ((0 : BitVec 3) ≠ 1 ∧ (0 : BitVec 3) < 6 ∧ (1 : Byte) ≠ 0) ∧
      ((5 : BitVec 3) ≠ 1 ∧ (5 : BitVec 3) < 6 ∧ (0xFF : Byte) ≠ 0) := by decide

theorem witness_DecodeOfEncode : (Instr.response 1 2 3 4 5 6 7).wellFormed = true ∧
    encode (.response 1 2 3 4 5 6 7) = some (.frame [0x3E, 1, 6, 2, 3, 4, 5, 6, 7]) := by decide

theorem witness_EncodeOfDecode : decode (.event 0x1FF) = .ok (.rxByte 0xFF) := by decide

theorem witness_EnqueueStoresOrDrops : (QueueInv lastEntry ∧ lastEntry.qCount < lastEntry.txqCap) ∧
    (QueueInv full ∧ full.qCount = full.txqCap) := ⟨⟨lastEntry_queue, by decide⟩, full_queue, rfl⟩

theorem witness_DequeueTakesTheOldest : (QueueInv lastEntry ∧ 0 < lastEntry.qCount) ∧
    (QueueInv quiet ∧ quiet.qCount = 0) := ⟨⟨lastEntry_queue, by decide⟩, quiet_queue, rfl⟩

theorem witness_EmptyAndLengthObserversOnlyRead : QueueInv full ∧ full.qCount = full.txqCap := ⟨full_queue, rfl⟩

theorem witness_FullObserverOnlyReads : QueueInv full ∧ full.qFull = true := ⟨full_queue, rfl⟩

theorem witness_EnqueueFrameQueuesWhatFits : QueueInv lastEntry ∧ lastEntry.free = 8 := ⟨lastEntry_queue, rfl⟩

theorem full_accepts : full.accepts 0xD5 := by simp only [State.accepts]; decide

theorem witness_FullQueueDoesNotSuppressTheEvent : full.qCount = full.txqCap ∧ full.accepts 0xD5 := ⟨rfl, full_accepts⟩

theorem witness_ContentShrinksOnlyByPopOrReset : QueueInv full ∧ Instr.idle ≠ .txPop ∧ Instr.idle ≠ .dequeue ∧
    Instr.idle ≠ .reset ∧ exec .idle full = .next { full with evtValid := false } :=
  ⟨full_queue, by decide, by decide, by decide, rfl⟩

theorem witness_ControllerRecoversTheFields : (-128 : Int) ≤ -128 ∧ (-128 : Int) ≤ 127 ∧ (127 : Int) ≤ 127 := by decide

theorem witness_SyncByteStartsAFrame : quiet.st = .waitHeader := rfl

theorem witness_OtherByteIsASyncLoss : quiet.st = .waitHeader ∧ (0x3E : Byte) ≠ 0x31 := by decide

theorem witness_AddressByteIsStoredAndFolded : { quiet with st := .waitAddress : State }.st = .waitAddress := rfl

theorem witness_OpcodeByteIsStoredAndFolded : { quiet with st := .waitOpcode : State }.st = .waitOpcode := rfl

theorem witness_ValidFrameIsAccepted : QueueInv beforeCrc ∧ beforeCrc.st = .waitCrc ∧ beforeCrc.cnt + 1 = 4 ∧
    beforeCrc.fOpc = 0x06 ∧ beforeCrc.crcAcc = 0xD5 := ⟨beforeCrc_queue, rfl, rfl, rfl, rfl⟩

theorem witness_InvalidFrameIsRejected : beforeCrc.st = .waitCrc ∧
    ¬ (beforeCrc.cnt + 1 = 4 ∧ beforeCrc.fOpc = 0x06 ∧ beforeCrc.crcAcc = 0x2A) ∧
    ¬ ({ beforeCrc with cnt := 0 : State }.cnt + 1 = 4 ∧ beforeCrc.fOpc = 0x06 ∧ beforeCrc.crcAcc = 0xD5) ∧
    ¬ (beforeCrc.cnt + 1 = 4 ∧ { beforeCrc with fOpc := 7 : State }.fOpc = 0x06 ∧ beforeCrc.crcAcc = 0xD5) := by decide

theorem witness_EveryByteIsDefinedInEveryState : receivedByte (.rxByteCrcReject 0x2A) = some 0x2A ∧ QueueInv beforeCrc :=
  ⟨rfl, beforeCrc_queue⟩

theorem witness_RxByteRunsTheSelectedRow : (quiet.st = .waitHeader ∧ (0x31 : Byte) = 0x31 ∧ (0x30 : Byte) ≠ 0x31) ∧
    { quiet with st := .waitAddress : State }.st = .waitAddress ∧
    { quiet with st := .waitOpcode : State }.st = .waitOpcode ∧
    (beforeCrc.st = .waitCrc ∧ (beforeCrc.cnt + 1 = 4 ∧ beforeCrc.fOpc = 0x06 ∧ beforeCrc.crcAcc = 0xD5) ∧
      ¬ (beforeCrc.cnt + 1 = 4 ∧ beforeCrc.fOpc = 0x06 ∧ beforeCrc.crcAcc = 0x2A)) := by decide

theorem witness_NoTimeout :
    (receivedByte .txPop = none ∧ presentsFrame .txPop = false ∧ Instr.txPop ≠ .lineErr ∧ Instr.txPop ≠ .reset) ∧
    (∃ t, exec .txPop lastEntry = .next t) ∧
    (∃ t, clockCycle { txPop := true } lastEntry = .next t) ∧
    (QueueInv lastEntry ∧ ∀ i ∈ [Instr.txPop, .txDone, .idle], i = .txPop ∨ i = .txDone ∨ i = .idle) :=
  ⟨by decide, ⟨_, rfl⟩, ⟨_, rfl⟩, lastEntry_queue, by decide⟩

theorem witness_EventFiresOncePerAccept :
    (∃ t, presentsFrame (.rxByte 0xD5) = false ∧ exec (.rxByte 0xD5) beforeCrc = .next t ∧
      receivedByte (.rxByte 0xD5) = some 0xD5 ∧ beforeCrc.accepts 0xD5) ∧
    (∃ t, presentsFrame .idle = false ∧ exec .idle beforeCrc = .next t ∧
      ¬ ∃ d, receivedByte .idle = some d ∧ beforeCrc.accepts d) :=
  ⟨⟨_, rfl, rfl, rfl, beforeCrc_accepts⟩, _, rfl, rfl, by simp [receivedByte]⟩

theorem witness_ReadTelemetryIsAnsweredFromWaitHeader : QueueInv quiet ∧ quiet.st = .waitHeader ∧
    (0xD5 : Byte) = crc8 [0x31, 0x12, 0x06] ∧ (0x2A : Byte) ≠ crc8 [0x31, 0x12, 0x06] :=
  ⟨quiet_queue, rfl, by decide, by decide⟩

theorem witness_ExactlyTheRequestMapIsAccepted : QueueInv quiet ∧ quiet.st = .waitHeader ∧
    (requestWord 0x31 0x12 0x06 0xD5 &&& 0xFF00FF00 = 0x31000600 ∧ (0xD5 : Byte) = crc8 [0x31, 0x12, 0x06]) ∧
    ¬ (requestWord 0x31 0x12 0x07 0x8B &&& 0xFF00FF00 = 0x31000600 ∧ (0x8B : Byte) = crc8 [0x31, 0x12, 0x06]) :=
  ⟨quiet_queue, rfl, by decide, by decide⟩

theorem witness_LoopedBackResponseIsOrdinaryBytes : QueueInv quiet ∧ quiet.st = .waitHeader ∧
    (0x31 : Byte) ∉ response12 := ⟨quiet_queue, rfl, by decide⟩

theorem witness_PopHandsOverThePresentedByte : (QueueInv lastEntry ∧ 0 < lastEntry.qCount) ∧
    (QueueInv quiet ∧ quiet.qCount = 0) := witness_DequeueTakesTheOldest

theorem witness_EmptyPopHasNoEffect : quiet.qCount = 0 := rfl

theorem witness_FaultDropsTheByteOfItsCycle : { rxErr := true, rxValid := true : Ports }.rxErr = true ∧
    { rxData := 1 : Ports }.rxValid = false := by decide

theorem witness_ResetOverridesTheCycle : { rst := true, txPop := true : Ports }.rst = true := rfl

theorem witness_PulseFollowsTheAccept :
    (∃ t, clockCycle { rxValid := true, rxData := 0xD5 } beforeCrc = .next t ∧
      cycleAccepts { rxValid := true, rxData := 0xD5 } beforeCrc) ∧
    (∃ t, clockCycle { rxErr := true, rxValid := true, rxData := 0xD5 } beforeCrc = .next t ∧
      ¬ cycleAccepts { rxErr := true, rxValid := true, rxData := 0xD5 } beforeCrc) :=
  ⟨⟨_, rfl, rfl, rfl, rfl, beforeCrc_accepts⟩, _, rfl, by simp [cycleAccepts]⟩

theorem witness_TransmitIsArmedOnlyByAnAccept :
    (answers (clockCycle { rxValid := true, rxData := 0xD5 } beforeCrc) (fun t => !beforeCrc.txValid && t.txValid) &&
      answers (clockCycle { txPop := true } lastEntry) (fun t => lastEntry.txValid && !t.txValid) &&
      answers (clockCycle { rst := true } full) (fun t => full.txValid && !t.txValid)) = true := by decide

theorem witness_TelemetryIsReadOnlyByAnAccept :
    ({ txPop := true : Ports }.telemetry = none ∧ { txPop := true : Ports }.rst = false ∧
      ¬ cycleAccepts { txPop := true } beforeCrc) ∧
    (QueueInv full ∧ cycleAccepts { txPop := true, rxValid := true, rxData := 0xD5 } full) ∧
    (QueueInv { full with tel := none } ∧ cycleAccepts { rxValid := true, rxData := 0xD5 } { full with tel := none }) :=
  ⟨⟨rfl, rfl, by simp [cycleAccepts]⟩, ⟨full_queue, rfl, rfl, rfl, full_accepts⟩,
    full_queue.of_eq rfl rfl rfl rfl rfl, rfl, rfl, rfl, full_accepts⟩

theorem witness_EveryStepKeepsTheInvariant : EngineInv { running with inputs := [.word (.event 0x1D5)] } ∧
    ∃ t, step { running with inputs := [.word (.event 0x1D5)] } = .next t :=
  ⟨⟨running_inv.queue.of_eq rfl rfl rfl rfl rfl,
    ⟨running_inv.parser.countOfState, running_inv.parser.headerStored, running_inv.parser.crcOfReceived⟩,
    ⟨running_inv.record.fifo, running_inv.record.latestEvent, running_inv.record.pulseHasEvent,
      running_inv.record.noLengthReject⟩⟩, _, rfl⟩

theorem witness_EveryEventIsDefined : EngineInv running ∧
    (eventKind 0x1D5 ≠ 6 ∧ eventKind 0x1D5 ≠ 7 ∧ (eventKind 0x1D5 ≠ 1 → eventData 0x1D5 = 0)) ∧
    (eventKind 0x500 ≠ 6 ∧ eventKind 0x500 ≠ 7 ∧ (eventKind 0x500 ≠ 1 → eventData 0x500 = 0)) :=
  ⟨running_inv, by decide, by decide⟩

theorem witness_StaleRegistersAreUnobservable : { running with fHdr := 0, fCrc := 0x77 : State } ≠ running ∧
    { running with fHdr := 0, fCrc := 0x77 : State }.forgetStale = running.forgetStale := by decide

theorem witness_DeadQueueEntriesAreUnobservable : QueueInv lastEntry ∧
    QueueInv { lastEntry with qMem := [(4, 0xAA), (8, 0x76)] } ∧
    SameButDeadEntries lastEntry { lastEntry with qMem := [(4, 0xAA), (8, 0x76)] } :=
  ⟨lastEntry_queue,
    { capacity := by decide, headInRange := by decide, countInRange := by decide, tailPlace := by decide
      memoryWf := by decide, memoryInRange := by decide }, rfl, by decide⟩

theorem witness_TransmitOrderIsEnqueueOrder : EngineInv running ∧ ∃ t, core.run 2 running = .next t :=
  ⟨running_inv, _, rfl⟩

theorem witness_QueueRegistersFitTheirWidths : QueueInv full ∧ QueueInv quiet := ⟨full_queue, quiet_queue⟩

end Sys2Proof.Tests
end

section
/-! PROOFS. The statements of 30_encoding.md. -/

namespace Sys2Proof.Machine

/-- R81 from the word's side: in every state RX_BYTE of `d` is each instruction that presents `d`, so the row that the
state selects in particular. -/
theorem exec_rxByte_eq_of_receivedByte {i : Instr} {d : Byte} (h : receivedByte i = some d) (s : State) :
    exec (.rxByte d) s = exec i s :=
  (exec_of_receivedByte h s).symm

/-- Settles O36. The state conditions choose the row. They are not premises of the equations, because a row run outside
its condition does what its word does there (log entry 6); only SYNC needs its byte. -/
theorem rxByteRunsTheSelectedRow : Obligations.RxByteRunsTheSelectedRow := by
  intro s d
  refine ⟨?sync, ?syncLoss, ?address, ?opcode, ?crcAccept, ?crcReject⟩
  case sync =>
    rintro - rfl
    exact exec_rxByte_eq_of_receivedByte (i := .rxByteSync) rfl s
  case syncLoss => exact fun _ _ => exec_rxByte_eq_of_receivedByte rfl s
  case address => exact fun _ => exec_rxByte_eq_of_receivedByte rfl s
  case opcode => exact fun _ => exec_rxByte_eq_of_receivedByte rfl s
  case crcAccept => exact fun _ _ => exec_rxByte_eq_of_receivedByte rfl s
  case crcReject => exact fun _ _ => exec_rxByte_eq_of_receivedByte rfl s

end Sys2Proof.Machine
end

section
/-! PROOFS. The statements of 41_txqueue.md. -/

namespace Sys2Proof.Machine

/-! ### No operation changes the capacity (R7, R126) -/

theorem enqueue_txqCap {b : Byte} {s : State} {r : State × Bool} (h : enqueue b s = .next r) :
    r.1.txqCap = s.txqCap := by
  rw [(enqueue_frame (t := r.1) (ok := r.2) h).1]

theorem enqueueAll_txqCap {bytes : List Byte} {s t : State} (h : enqueueAll bytes s = .next t) :
    t.txqCap = s.txqCap := by
  rw [(enqueueAll_frame h).1]

theorem dequeue_txqCap {s : State} {r : State × Byte × Bool} (h : dequeue s = .next r) :
    r.1.txqCap = s.txqCap := by
  rw [dequeue] at h
  split_ifs at h
  · obtain ⟨_, -, hr⟩ := andThen_eq_next.mp h
    cases hr
    rfl
  · cases h
    rfl

theorem ruleTxPop_txqCap {s t : State} (h : ruleTxPop s = .next t) : t.txqCap = s.txqCap := by
  rcases ruleTxPop_cases h with ⟨-, rfl⟩ | ⟨-, rfl⟩ <;> rfl

theorem ruleAccept_txqCap {s t : State} (h : ruleAccept s = .next t) : t.txqCap = s.txqCap := by
  rw [(ruleAccept_frame h).1]

theorem rxDispatch_txqCap {b : Byte} {s t : State} (h : rxDispatch b s = .next t) : t.txqCap = s.txqCap := by
  rcases rxDispatch_next h with ⟨-, haccept⟩ | ⟨-, hframe⟩
  · exact ruleAccept_txqCap (s := s.takeCrc b) haccept
  · rw [hframe]

theorem execRxByte_txqCap {d : Byte} {s t : State} (h : execRxByte d s = .next t) : t.txqCap = s.txqCap :=
  rxDispatch_txqCap (s := s.clearPulse) h

theorem receiveBytes_txqCap {bytes : List Byte} {s t : State} (h : receiveBytes bytes s = .next t) :
    t.txqCap = s.txqCap := by
  induction bytes generalizing s with
  | nil => cases h; rfl
  | cons b bytes ih =>
    obtain ⟨u, hu, ht⟩ := andThen_eq_next.mp h
    exact (ih ht).trans (execRxByte_txqCap hu)

/-- An instruction that goes on keeps the capacity. -/
theorem exec_txqCap {i : Instr} {s t : State} (h : exec i s = .next t) : t.txqCap = s.txqCap := by
  cases i with
  | readTelemetry | response => exact receiveBytes_txqCap h
  | rxByte | rxByteSync | rxByteSyncLoss | rxByteAddress | rxByteOpcode | rxByteCrcAccept | rxByteCrcReject =>
    exact execRxByte_txqCap ((exec_of_receivedByte rfl s).symm.trans h)
  | txPop => exact ruleTxPop_txqCap (s := s.clearPulse) h
  | enqueue =>
    obtain ⟨_, hu, ht⟩ := andThen_eq_next.mp h
    cases ht
    exact enqueue_txqCap hu
  | dequeue =>
    obtain ⟨_, hu, ht⟩ := andThen_eq_next.mp h
    cases ht
    exact dequeue_txqCap hu
  | enqueueFrame => exact enqueueAll_txqCap h
  | reservedKind6 | reservedKind7 | reservedData => cases h
  | idle | lineErr | txDone | reset | crc8Step | crc8 | isEmpty | len | isFull | buildResponse =>
    cases h
    rfl

/-! ### No step changes the capacity -/

theorem cycleReceive_txqCap {p : Ports} {s t : State} (h : cycleReceive p s = .next t) : t.txqCap = s.txqCap := by
  rw [cycleReceive] at h
  split_ifs at h
  · cases h; rfl
  · exact rxDispatch_txqCap h
  · cases h; rfl

theorem clockCycle_txqCap {p : Ports} {s t : State} (h : clockCycle p s = .next t) : t.txqCap = s.txqCap := by
  rcases hr : p.rst with _ | _
  · have hpresent : (s.present p.telemetry).clearPulse.txqCap = s.txqCap := by rw [present_eq]; rfl
    rw [clockCycle_of_not_rst hr] at h
    obtain ⟨u, hu, ht⟩ := andThen_eq_next.mp h
    have hpop : u.txqCap = (s.present p.telemetry).clearPulse.txqCap := by
      split_ifs at hu
      · exact ruleTxPop_txqCap hu
      · cases hu; rfl
    exact (cycleReceive_txqCap ht).trans (hpop.trans hpresent)
  · rw [clockCycle_of_rst hr] at h
    cases h
    rfl

theorem undecoded_txqCap {e : DecodeRefusal} {s t : State} (h : undecoded e s = .next t) : t.txqCap = s.txqCap := by
  cases e with
  | notATableFrame => exact receiveBytes_txqCap h
  | reservedKind6 | reservedKind7 | reservedData => cases h

theorem runWord_txqCap {r : RawWord} {s t : State} (h : runWord r s = .next t) : t.txqCap = s.txqCap := by
  rw [runWord] at h
  split at h
  · exact exec_txqCap h
  · exact undecoded_txqCap h

theorem step_of_capacity_lt {s : State} (h : s.txqCap < Config.minCapacity) :
    step s = .refused (.capacityBelowOneFrame s.txqCap) := if_pos h

/-- A step that goes on keeps the capacity, whatever waits at the inputs. -/
theorem step_txqCap {s t : State} (h : step s = .next t) : t.txqCap = s.txqCap := by
  rw [step] at h
  split_ifs at h
  split at h
  case h_1 => exact exec_txqCap h
  case h_2 rest _ => exact runWord_txqCap (s := s.setInputs rest) h
  case h_3 rest _ => exact clockCycle_txqCap (s := s.setInputs rest) h
  case h_4 => cases h; rfl

/-- Settles O6: each operation keeps the capacity, so instructions and steps do, and `step` refuses a small one before
it looks at its inputs. -/
theorem capacityIsFixedAndChecked : Obligations.CapacityIsFixedAndChecked :=
  ⟨fun _ => step_of_capacity_lt, fun _ _ _ => exec_txqCap, fun _ _ => step_txqCap⟩

end Sys2Proof.Machine
end

section
/-! PROOFS. The statements of 43_rxfsm.md. -/

namespace Sys2Proof.Machine

/-! ### The Parser State (R21) -/

theorem SameParser.refl (s : State) : SameParser s s := ⟨rfl, rfl, rfl, rfl, rfl, rfl, rfl⟩

theorem SameParser.trans {s t u : State} (hst : SameParser s t) (htu : SameParser t u) : SameParser s u := by
  obtain ⟨h1, h2, h3, h4, h5, h6, h7⟩ := hst
  obtain ⟨k1, k2, k3, k4, k5, k6, k7⟩ := htu
  exact ⟨k1.trans h1, k2.trans h2, k3.trans h3, k4.trans h4, k5.trans h5, k6.trans h6, k7.trans h7⟩

/-! ### What operates on the transmit side alone -/

/-- `t` is `s` but for the queue, the records of what was enqueued, transmitted and classified, the pulse and the value
returned: the parser, the accepted-request record and the environment's fields are untouched. -/
def TransmitSideOnly (s t : State) : Prop :=
  t = { s with
    qMem := t.qMem, qHead := t.qHead, qTail := t.qTail, qCount := t.qCount, evtValid := t.evtValid
    txTrace := t.txTrace, diag := t.diag, enqTrace := t.enqTrace, ret := t.ret }

theorem TransmitSideOnly.sameParser {s t : State} (h : TransmitSideOnly s t) : SameParser s t := by
  rw [h]
  exact .refl s

theorem TransmitSideOnly.evtTrace_eq {s t : State} (h : TransmitSideOnly s t) : t.evtTrace = s.evtTrace := by rw [h]

theorem TransmitSideOnly.returning {s t : State} (h : TransmitSideOnly s t) (v : Returned) :
    TransmitSideOnly s (t.returning v) := by
  rw [h]
  rfl

theorem enqueueAll_transmitSideOnly {bytes : List Byte} {s t : State} (h : enqueueAll bytes s = .next t) :
    TransmitSideOnly s t := by
  rw [(enqueueAll_frame h).1]
  rfl

theorem enqueue_transmitSideOnly {b : Byte} {s : State} {r : State × Bool} (h : enqueue b s = .next r) :
    TransmitSideOnly s r.1 := by
  rw [(enqueue_frame (t := r.1) (ok := r.2) h).1]
  rfl

theorem dequeue_transmitSideOnly {s : State} {r : State × Byte × Bool} (h : dequeue s = .next r) :
    TransmitSideOnly s r.1 := by
  rw [dequeue] at h
  split_ifs at h
  · obtain ⟨_, -, hr⟩ := andThen_eq_next.mp h
    cases hr
    rfl
  · cases h
    rfl

theorem ruleTxPop_transmitSideOnly {s t : State} (h : ruleTxPop s = .next t) : TransmitSideOnly s t := by
  rcases ruleTxPop_cases h with ⟨-, rfl⟩ | ⟨-, rfl⟩ <;> rfl

/-- `evt_valid` is among what may change, so its fall at the clock edge is too. -/
theorem TransmitSideOnly.of_clearPulse {s t : State} (h : TransmitSideOnly s.clearPulse t) : TransmitSideOnly s t := h

/-- The receive side and RESET apart, an instruction that goes on works on the transmit side alone. -/
theorem exec_transmitSideOnly {i : Instr} {s t : State} (hbyte : receivedByte i = none)
    (hframe : presentsFrame i = false) (herr : i ≠ .lineErr) (hreset : i ≠ .reset) (h : exec i s = .next t) :
    TransmitSideOnly s t := by
  cases i with
  | readTelemetry | response => cases hframe
  | rxByte | rxByteSync | rxByteSyncLoss | rxByteAddress | rxByteOpcode | rxByteCrcAccept | rxByteCrcReject =>
    cases hbyte
  | lineErr => exact absurd rfl herr
  | reset => exact absurd rfl hreset
  | reservedKind6 | reservedKind7 | reservedData => cases h
  | txPop => exact (ruleTxPop_transmitSideOnly h).of_clearPulse
  | enqueue =>
    obtain ⟨r, hr, ht⟩ := andThen_eq_next.mp h
    cases ht
    exact (enqueue_transmitSideOnly hr).returning _
  | dequeue =>
    obtain ⟨r, hr, ht⟩ := andThen_eq_next.mp h
    cases ht
    exact (dequeue_transmitSideOnly hr).returning _
  | enqueueFrame => exact enqueueAll_transmitSideOnly h
  | idle | txDone | crc8Step | crc8 | isEmpty | len | isFull | buildResponse =>
    cases h
    rfl

/-! ### No timeout (R180) -/

theorem cycleReceive_of_nothing {p : Ports} (herr : p.rxErr = false) (hbyte : p.rxValid = false) (s : State) :
    cycleReceive p s = .next s := by
  simp [cycleReceive, herr, hbyte]

/-- A cycle that asserts neither reset, line fault nor a byte keeps the Parser State, whether or not it pops. -/
theorem clockCycle_sameParser {p : Ports} {s t : State} (hrst : p.rst = false) (herr : p.rxErr = false)
    (hbyte : p.rxValid = false) (h : clockCycle p s = .next t) : SameParser s t := by
  have hpresent : SameParser s (s.present p.telemetry).clearPulse := by
    rw [present_eq]
    exact .refl s
  rw [clockCycle_of_not_rst hrst] at h
  obtain ⟨u, hu, ht⟩ := andThen_eq_next.mp h
  cases (cycleReceive_of_nothing herr hbyte u).symm.trans ht
  split_ifs at hu
  · exact hpresent.trans (ruleTxPop_transmitSideOnly hu).sameParser
  · cases hu
    exact hpresent

theorem ruleTxPop_completes {s : State} (h : QueueInv s) : ∃ t, ruleTxPop s = .next t ∧ QueueInv t := by
  refine ⟨_, ruleTxPop_eq h, ?_⟩
  split_ifs with hc
  · exact (advanceHead_queueInv h hc).of_eq rfl rfl rfl rfl rfl
  · exact h.of_eq rfl rfl rfl rfl rfl

/-- TX_POP, TX_DONE and IDLE complete, keep the queue invariants and keep the Parser State. -/
theorem exec_transportEvent {i : Instr} {s : State} (hs : QueueInv s) (hi : i = .txPop ∨ i = .txDone ∨ i = .idle) :
    ∃ t, exec i s = .next t ∧ QueueInv t ∧ SameParser s t := by
  have hpulse : QueueInv s.clearPulse := hs.of_eq rfl rfl rfl rfl rfl
  rcases hi with rfl | rfl | rfl
  · obtain ⟨t, ht, hq⟩ := ruleTxPop_completes hpulse
    exact ⟨t, ht, hq, (ruleTxPop_transmitSideOnly ht).of_clearPulse.sameParser⟩
  · exact ⟨_, rfl, hpulse, .refl s⟩
  · exact ⟨_, rfl, hpulse, .refl s⟩

theorem execAll_transportEvents {is : List Instr} {s : State} (hs : QueueInv s)
    (his : ∀ i ∈ is, i = .txPop ∨ i = .txDone ∨ i = .idle) : ∃ t, execAll is s = .next t ∧ SameParser s t := by
  induction is generalizing s with
  | nil => exact ⟨s, rfl, .refl s⟩
  | cons i is ih =>
    obtain ⟨hi, his⟩ := List.forall_mem_cons.mp his
    obtain ⟨u, hu, hq, hsu⟩ := exec_transportEvent hs hi
    obtain ⟨t, ht, hut⟩ := ih hq his
    exact ⟨t, andThen_eq_next.mpr ⟨u, hu, ht⟩, hsu.trans hut⟩

/-- Settles O38: what presents no byte, no line fault and no reset works on the transmit side alone, and the transport's
own events complete, by induction on their list. -/
theorem noTimeout : Obligations.NoTimeout :=
  ⟨fun _ _ _ hbyte hframe herr hreset h => (exec_transmitSideOnly hbyte hframe herr hreset h).sameParser,
    fun _ _ _ => clockCycle_sameParser, fun _ _ => execAll_transportEvents⟩

/-! ### The accepted-request event (R177, R183, R205) -/

/-- A received byte fires the event exactly where it accepts. The queue is not asked: an accept that goes on fires it
whatever became of the enqueues. -/
theorem execRxByte_event {d : Byte} {s t : State} (h : execRxByte d s = .next t) :
    (s.accepts d ∧ t.evtTrace = s.evtTrace ++ [s.fAddr] ∧ t.evtValid = true ∧ t.evtAddr = s.fAddr) ∨
    (¬ s.accepts d ∧ t.evtTrace = s.evtTrace) := by
  rcases rxDispatch_next (s := s.clearPulse) h with ⟨haccepts, haccept⟩ | ⟨hnot, hrest⟩
  · refine .inl ⟨haccepts, ?_⟩
    rw [(ruleAccept_frame haccept).1]
    exact ⟨rfl, rfl, rfl⟩
  · refine .inr ⟨hnot, ?_⟩
    rw [hrest]
    rfl

/-- What presents no byte fires no event: LINE_ERR touches the parser alone, the rest the transmit side alone. -/
theorem exec_evtTrace_of_no_byte {i : Instr} {s t : State} (hbyte : receivedByte i = none)
    (hframe : presentsFrame i = false) (hreset : i ≠ .reset) (h : exec i s = .next t) : t.evtTrace = s.evtTrace := by
  by_cases herr : i = .lineErr
  · subst herr
    cases h
    rfl
  · exact (exec_transmitSideOnly hbyte hframe herr hreset h).evtTrace_eq

/-- Settles O39, by whether the instruction presents a byte and, where it does, whether that byte accepts. -/
theorem eventFiresOncePerAccept : Obligations.EventFiresOncePerAccept := by
  intro i s t hframe hreset h
  rcases hbyte : receivedByte i with _ | d
  · have hnone : ¬ ∃ d, none = some d ∧ s.accepts d := by simp
    exact ⟨fun hd => absurd hd hnone, fun _ => exec_evtTrace_of_no_byte hbyte hframe hreset h⟩
  · have hiff : (∃ b, some d = some b ∧ s.accepts b) ↔ s.accepts d := by simp
    rw [hiff]
    rcases execRxByte_event ((exec_of_receivedByte hbyte s).symm.trans h) with ⟨hacc, hevent⟩ | ⟨hnot, hkept⟩
    · exact ⟨fun _ => hevent, fun hn => absurd hacc hn⟩
    · exact ⟨fun ha => absurd ha hnot, fun _ => hkept⟩

end Sys2Proof.Machine
end

section
/-! PROOFS. The statements of 44_transport.md. -/

namespace Sys2Proof.Machine

/-! ### Idle cycles and reset cycles (R209, R212) -/

theorem exec_idle (s : State) : exec .idle s = .next s.clearPulse := rfl

theorem exec_reset (s : State) : exec .reset s = .next s.blockReset := rfl

/-- A cycle without reset, pop, line fault and byte takes the telemetry that it drives and lets the pulse fall. -/
theorem clockCycle_of_nothing {p : Ports} (hrst : p.rst = false) (hpop : p.txPop = false) (herr : p.rxErr = false)
    (hbyte : p.rxValid = false) (s : State) : clockCycle p s = .next (s.present p.telemetry).clearPulse := by
  rw [clockCycle_of_not_rst hrst, hpop]
  exact cycleReceive_of_nothing herr hbyte _

/-- Settles O5: with no input asserted and no telemetry driven, all that is left of a cycle is the fall of the pulse,
which is IDLE. -/
theorem idleChangesOnlyThePulse : Obligations.IdleChangesOnlyThePulse :=
  fun s => ⟨exec_idle s, clockCycle_of_nothing rfl rfl rfl rfl s⟩

/-- Settles O49: a cycle with `rst` answers the reset state without reading another port. -/
theorem resetOverridesTheCycle : Obligations.ResetOverridesTheCycle :=
  fun _ s hrst => (clockCycle_of_rst hrst s).trans (exec_reset s).symm

/-! ### The status outputs (R213) -/

theorem State.qEmpty_eq_true_iff (s : State) : s.qEmpty = true ↔ s.qCount = 0 := beq_iff_eq

theorem State.qFull_eq_true_iff (s : State) : s.qFull = true ↔ s.qCount = s.txqCap := beq_iff_eq

/-- Settles O52: the ports show the observers, and the observers compare the count. -/
theorem statusOutputsAreTheObservers : Obligations.StatusOutputsAreTheObservers :=
  fun s => ⟨rfl, s.qEmpty_eq_true_iff, s.qFull_eq_true_iff⟩

end Sys2Proof.Machine
end

section
/-! PROOFS. The statements of 30_encoding.md on the decoder and the encoder. -/

namespace Sys2Proof.Machine

/-! ### Decoding an encoding -/

/-- Every instruction's word decodes to the instruction that the word stands for. -/
theorem decode_encode : ∀ i : Instr, Laws.EncodeDecode.Statement i
  | .readTelemetry a c => Laws.EncodeDecode.readTelemetry a c
  | .response a t l h f g c => Laws.EncodeDecode.response a t l h f g c
  | .idle => Laws.EncodeDecode.idle
  | .rxByte d => Laws.EncodeDecode.rxByte d
  | .rxByteSync => Laws.EncodeDecode.rxByteSync
  | .rxByteSyncLoss d => Laws.EncodeDecode.rxByteSyncLoss d
  | .rxByteAddress d => Laws.EncodeDecode.rxByteAddress d
  | .rxByteOpcode d => Laws.EncodeDecode.rxByteOpcode d
  | .rxByteCrcAccept d => Laws.EncodeDecode.rxByteCrcAccept d
  | .rxByteCrcReject d => Laws.EncodeDecode.rxByteCrcReject d
  | .lineErr => Laws.EncodeDecode.lineErr
  | .txPop => Laws.EncodeDecode.txPop
  | .txDone => Laws.EncodeDecode.txDone
  | .reset => Laws.EncodeDecode.reset
  | .reservedKind6 x => Laws.EncodeDecode.reservedKind6 x
  | .reservedKind7 x => Laws.EncodeDecode.reservedKind7 x
  | .reservedData k x => Laws.EncodeDecode.reservedData k x
  | .crc8Step b c => Laws.EncodeDecode.crc8Step b c
  | .crc8 bytes => Laws.EncodeDecode.crc8 bytes
  | .enqueue b => Laws.EncodeDecode.enqueue b
  | .dequeue => Laws.EncodeDecode.dequeue
  | .isEmpty => Laws.EncodeDecode.isEmpty
  | .len => Laws.EncodeDecode.len
  | .isFull => Laws.EncodeDecode.isFull
  | .enqueueFrame r => Laws.EncodeDecode.enqueueFrame r
  | .buildResponse a t l f => Laws.EncodeDecode.buildResponse a t l f

/-- Settles O10, from the lemma of each instruction. -/
theorem decodeOfEncode : Obligations.DecodeOfEncode :=
  fun i r hwf henc => decode_encode i hwf r henc

/-! ### Encoding what decodes -/

/-- A plain event's word has data 0x00. -/
theorem decodePlainEvent_eq_ok {i j : Instr} {k : BitVec 3} {d : Byte} (h : decodePlainEvent i k d = .ok j) :
    d = 0 ∧ j = i := by
  rw [decodePlainEvent] at h
  split_ifs at h with hd
  exact ⟨hd, (Except.ok.inj h).symm⟩

theorem decodePlainEvent_of_ne {d : Byte} (h : d ≠ 0) (i : Instr) (k : BitVec 3) :
    decodePlainEvent i k d = .error (.reservedData k d) := if_neg h

theorem encode_of_decodeEvent {w : BitVec 11} {i : Instr} (h : decodeEvent w = .ok i) : encode i = some (.event w) := by
  have plain {j : Instr} {k : BitVec 3} (hk : eventKind w = k) (hj : encode j = some (.event (eventWord k 0)))
      (hd : decodePlainEvent j (eventKind w) (eventData w) = .ok i) : encode i = some (.event w) := by
    obtain ⟨hdata, rfl⟩ := decodePlainEvent_eq_ok hd
    rw [hj, ← hk, ← hdata, eventWord_eta]
  simp only [decodeEvent] at h
  split_ifs at h with h0 h1 h2 h3 h4 h5
  · exact plain h0 rfl h
  · obtain rfl := Except.ok.inj h
    show some (RawWord.event (eventWord 1 (eventData w))) = _
    rw [← h1, eventWord_eta]
  · exact plain h2 rfl h
  · exact plain h3 rfl h
  · exact plain h4 rfl h
  · exact plain h5 rfl h

theorem encode_of_decodeFrame {bytes : List Byte} {i : Instr} (h : decodeFrame bytes = .ok i) :
    encode i = some (.frame bytes) := by
  simp only [decodeFrame] at h
  split at h
  · split_ifs at h with hfixed
    obtain ⟨rfl, rfl⟩ := hfixed
    obtain rfl := Except.ok.inj h
    rfl
  · split_ifs at h with hfixed
    obtain ⟨rfl, rfl⟩ := hfixed
    obtain rfl := Except.ok.inj h
    rfl
  · cases h

theorem encode_of_decode {r : RawWord} {i : Instr} (h : decode r = .ok i) : encode i = some r := by
  cases r with
  | event w => exact encode_of_decodeEvent h
  | frame bytes => exact encode_of_decodeFrame h

/-- What decodes is well-formed, and is no row that shares another row's word. -/
theorem wellFormed_of_decode {r : RawWord} {i : Instr} (h : decode r = .ok i) :
    i.wellFormed = true ∧ decodedAs i = i := by
  rcases decode_ok_cases h with rfl | ⟨d, rfl⟩ | rfl | rfl | rfl | rfl | ⟨a, c, rfl⟩ | ⟨a, t, l, h, f, g, c, rfl⟩ <;>
    exact ⟨rfl, rfl⟩

/-- Settles O11. -/
theorem encodeOfDecode : Obligations.EncodeOfDecode :=
  fun _ _ h => ⟨encode_of_decode h, wellFormed_of_decode h⟩

/-! ### The event words (R80, R82) -/

theorem decode_kind6 {w : BitVec 11} (h : eventKind w = 6) :
    decode (.event w) = .error (.reservedKind6 (eventData w)) := by
  simp [decode, decodeEvent, h]

theorem decode_kind7 {w : BitVec 11} (h : eventKind w = 7) :
    decode (.event w) = .error (.reservedKind7 (eventData w)) := by
  simp [decode, decodeEvent, h]

theorem decode_data {w : BitVec 11} (h1 : eventKind w ≠ 1) (h6 : eventKind w < 6) (hd : eventData w ≠ 0) :
    decode (.event w) = .error (.reservedData (eventKind w) (eventData w)) := by
  rcases plainKind_cases _ h6 h1 with h | h | h | h | h <;> simp [decode, decodeEvent, decodePlainEvent_of_ne hd, h]

/-- Settles O8: an event word is its kind and its data, and the kinds are those of the table. -/
theorem eventWordsDecodeByKind : Obligations.EventWordsDecodeByKind := by
  refine ⟨fun w => (eventWord_eta w).symm, Laws.EncodeDecode.decode_rxByte, rfl, rfl, rfl, rfl, rfl,
    ?data, ?kind6, ?kind7⟩
  case data =>
    intro k d h1 h6 hd
    simpa using decode_data (w := eventWord k d) (by simpa using h1) (by simpa using h6) (by simpa using hd)
  case kind6 => exact fun d => by simpa using decode_kind6 (eventKind_eventWord 6 d)
  case kind7 => exact fun d => by simpa using decode_kind7 (eventKind_eventWord 7 d)

/-- Settles O9: each word is a literal of the spec, so the decoder is run on it. -/
theorem specWordsDecode : Obligations.SpecWordsDecode := by
  unfold Obligations.SpecWordsDecode
  decide

/-! ### The step (R80, R82, R126) -/

theorem step_of_idle {s : State} (h : Config.minCapacity ≤ s.txqCap) (hin : s.inputs = []) : step s = exec .idle s := by
  rw [step, if_neg (Nat.not_lt.mpr h), hin]

theorem step_of_word {s : State} {r : RawWord} {rest : List Input} (h : Config.minCapacity ≤ s.txqCap)
    (hin : s.inputs = .word r :: rest) : step s = runWord r (s.setInputs rest) := by
  rw [step, if_neg (Nat.not_lt.mpr h), hin]

theorem step_of_cycle {s : State} {p : Ports} {rest : List Input} (h : Config.minCapacity ≤ s.txqCap)
    (hin : s.inputs = .cycle p :: rest) : step s = clockCycle p (s.setInputs rest) := by
  rw [step, if_neg (Nat.not_lt.mpr h), hin]

theorem step_of_tel {s : State} {v : Option Telemetry} {rest : List Input} (h : Config.minCapacity ≤ s.txqCap)
    (hin : s.inputs = .tel v :: rest) : step s = .next ((s.setInputs rest).setTel v) := by
  rw [step, if_neg (Nat.not_lt.mpr h), hin]

theorem runWord_of_ok {r : RawWord} {i : Instr} (h : decode r = .ok i) (s : State) : runWord r s = exec i s := by
  rw [runWord, h]

theorem runWord_of_error {r : RawWord} {e : DecodeRefusal} (h : decode r = .error e) (s : State) :
    runWord r s = undecoded e s := by
  rw [runWord, h]

/-- A table word that decodes is an item, and the one that `withFetchWord` puts in front. -/
theorem rawOfTable_of_decodeTableWord {nbits w : Nat} {i : Instr} (h : decodeTableWord nbits w = some i) :
    ∃ r, rawOfTable nbits w = some r ∧ decode r = .ok i := by
  rw [decodeTableWord] at h
  split at h
  · next r hr =>
    rcases hd : decode r with e | j <;> rw [hd] at h <;> cases h
    exact ⟨r, hr, hd⟩
  · cases h

/-- Settles O3, one case for each form of an item. -/
theorem stepRunsDecodedInstruction : Obligations.StepRunsDecodedInstruction := by
  refine ⟨?word, ?table, ?cycle, ?tel, ?idle⟩
  case word =>
    intro s r rest i hcap hin hdec
    rw [step_of_word hcap hin, runWord_of_ok hdec]
    rfl
  case table =>
    intro s nbits w i hcap hdec
    obtain ⟨r, hr, hi⟩ := rawOfTable_of_decodeTableWord hdec
    have hplace : s.withFetchWord nbits w = s.setInputs (.word r :: s.inputs) := by
      rw [State.withFetchWord, placeWord, hr]
    rw [hplace, step_of_word (s := s.setInputs (.word r :: s.inputs)) hcap rfl, runWord_of_ok hi]
    rfl
  case cycle => exact fun s p rest hcap hin => step_of_cycle hcap hin
  case tel => exact fun s v rest hcap hin => step_of_tel hcap hin
  case idle => exact fun s hcap hin => step_of_idle hcap hin

/-- A byte list that the decoder refuses is refused as a whole, whatever its length. -/
theorem decode_frame_error {bytes : List Byte} {e : DecodeRefusal} (h : decode (.frame bytes) = .error e) :
    e = .notATableFrame bytes := by
  simp only [decode, decodeFrame] at h
  split at h
  · split_ifs at h
    exact (Except.error.inj h).symm
  · split_ifs at h
    exact (Except.error.inj h).symm
  · exact (Except.error.inj h).symm

/-- Settles O4. -/
theorem unknownFramesAreReceivedByteByByte : Obligations.UnknownFramesAreReceivedByteByByte := by
  intro s bytes rest e hcap hin hdec
  rw [step_of_word hcap hin, runWord_of_error hdec, decode_frame_error hdec]
  exact receiveBytes_eq_execAll bytes (s.setInputs rest)

/-- Settles O7: the rows refuse as instructions, and the decoder refuses their words by the same names. -/
theorem reservedEventWordsAreRefused : Obligations.ReservedEventWordsAreRefused := by
  refine ⟨fun _ _ => rfl, fun _ _ => rfl, fun _ _ _ => rfl, fun s w rest hcap hin => ⟨?kind6, ?kind7, ?data⟩⟩
  case kind6 =>
    intro h
    rw [step_of_word hcap hin, runWord_of_error (decode_kind6 h)]
    rfl
  case kind7 =>
    intro h
    rw [step_of_word hcap hin, runWord_of_error (decode_kind7 h)]
    rfl
  case data =>
    intro h1 h6 hd
    rw [step_of_word hcap hin, runWord_of_error (decode_data h1 h6 hd)]
    rfl

end Sys2Proof.Machine
end

section
/-! PROOFS. The statements of 40_crc8.md. -/

namespace Sys2Proof.Machine

/-! ### The selected constants and the XOR network (R100, R101) -/

@[simp] theorem byte_xor_zero (x : Byte) : x ^^^ 0 = x := BitVec.xor_zero

@[simp] theorem byte_zero_xor (x : Byte) : 0 ^^^ x = x := BitVec.zero_xor

theorem ite_xor_left (p : Prop) [Decidable p] (x k : Byte) : (if p then x ^^^ k else x) = x ^^^ if p then k else 0 := by
  split_ifs <;> simp

/-- CRC8_STEP as one XOR of the constants of R77, each kept or dropped by its bit. -/
theorem crc8Step_eq_selected (byte crc : Byte) :
    crc8Step byte crc =
      (let i := byte ^^^ crc
       let pick := fun (k : Nat) (c : Byte) => if i.getLsbD k then c else 0
       pick 0 0x5E ^^^ pick 1 0xBC ^^^ pick 2 0x61 ^^^ pick 3 0xC2 ^^^ pick 4 0x9D ^^^ pick 5 0x23 ^^^ pick 6 0x46 ^^^
         pick 7 0x8C) := by
  have hrange : List.range 8 = [0, 1, 2, 3, 4, 5, 6, 7] := rfl
  simp only [crc8Step, hrange, List.foldl_cons, List.foldl_nil, ite_xor_left, Config.crcK, byte_zero_xor]
  rfl

/-- The step depends on its operands through their XOR alone. -/
theorem crc8Step_eq_crc8Step_xor (byte crc : Byte) : crc8Step byte crc = crc8Step (byte ^^^ crc) 0 := by
  rw [crc8Step, crc8Step, byte_xor_zero]

@[simp] theorem crc8Step_self (byte : Byte) : crc8Step byte byte = 0 := by
  rw [crc8Step_eq_crc8Step_xor, BitVec.xor_self]
  rfl

/-- Settles O12. -/
theorem crc8StepIsSelectedXor : Obligations.Crc8StepIsSelectedXor :=
  fun byte crc _ => ⟨rfl, crc8Step_eq_selected byte crc, crc8Step_self byte⟩

theorem getLsbD_ite_byte (p : Prop) [Decidable p] (k : Byte) (j : Nat) :
    (if p then k else 0).getLsbD j = (decide p && k.getLsbD j) := by
  by_cases h : p <;> simp [h]

/-- Settles O14: bit `j` of the selected constants, for each `j`. -/
theorem crc8StepIsXorNetwork : Obligations.Crc8StepIsXorNetwork := by
  intro byte crc j
  by_cases hj : j < 8
  · rw [crc8Step_eq_selected]
    generalize byte ^^^ crc = i
    simp only [BitVec.getLsbD_xor, getLsbD_ite_byte]
    interval_cases j <;> simp [crc8NetworkBit]
  · have hout : crc8NetworkBit (byte ^^^ crc) j = false := by
      rw [crc8NetworkBit] <;> omega
    rw [hout, BitVec.getLsbD_of_ge _ _ (by omega)]

/-! ### Linearity (R104) -/

/-- The functions on bytes that carry XOR to XOR. -/
def XorLinear (f : Byte → Byte) : Prop := ∀ x y, f (x ^^^ y) = f x ^^^ f y

theorem XorLinear.map_zero {f : Byte → Byte} (hf : XorLinear f) : f 0 = 0 := by
  have h := hf 0 0
  rwa [BitVec.xor_self, BitVec.xor_self] at h

theorem XorLinear.map_ite {f : Byte → Byte} (hf : XorLinear f) (p : Prop) [Decidable p] (x : Byte) :
    f (if p then x else 0) = if p then f x else 0 := by
  split_ifs
  · rfl
  · exact hf.map_zero

/-- A byte is the XOR of its set bits. -/
theorem byte_eq_xor_bits (v : Byte) :
    v = (if v.getLsbD 0 then 0x01 else 0) ^^^ (if v.getLsbD 1 then 0x02 else 0) ^^^
      (if v.getLsbD 2 then 0x04 else 0) ^^^ (if v.getLsbD 3 then 0x08 else 0) ^^^
      (if v.getLsbD 4 then 0x10 else 0) ^^^ (if v.getLsbD 5 then 0x20 else 0) ^^^
      (if v.getLsbD 6 then 0x40 else 0) ^^^ (if v.getLsbD 7 then 0x80 else 0) := by
  apply BitVec.eq_of_getLsbD_eq
  intro j hj
  simp only [BitVec.getLsbD_xor, getLsbD_ite_byte]
  interval_cases j <;> simp

/-- A linear function is known from its values on the eight single bits. -/
theorem XorLinear.ext_bits {f g : Byte → Byte} (hf : XorLinear f) (hg : XorLinear g)
    (h : ∀ b ∈ [0x01, 0x02, 0x04, 0x08, 0x10, 0x20, 0x40, 0x80], f b = g b) : f = g := by
  funext v
  rw [byte_eq_xor_bits v, hf, hf, hf, hf, hf, hf, hf, hg, hg, hg, hg, hg, hg, hg]
  simp only [hf.map_ite, hg.map_ite]
  simp only [List.forall_mem_cons, List.not_mem_nil, false_imp_iff, implies_true, and_true] at h
  obtain ⟨h0, h1, h2, h3, h4, h5, h6, h7⟩ := h
  rw [h0, h1, h2, h3, h4, h5, h6, h7]

theorem crc8NetworkBit_xor (x y : Byte) (j : Nat) :
    crc8NetworkBit (x ^^^ y) j = (crc8NetworkBit x j ^^ crc8NetworkBit y j) := by
  unfold crc8NetworkBit
  split <;> simp only [BitVec.getLsbD_xor, Bool.xor_self]
  all_goals simp only [Bool.xor_assoc, Bool.xor_left_comm]

/-- The step from 0 is linear, because each bit of the network is. -/
theorem crc8Step_linear : XorLinear fun v => crc8Step v 0 := by
  intro x y
  apply BitVec.eq_of_getLsbD_eq
  intro j _
  simp only [BitVec.getLsbD_xor, crc8StepIsXorNetwork _ _ _, byte_xor_zero, crc8NetworkBit_xor]

/-! ### The table (R103, R104) -/

/-- The 256 entries against the step. -/
theorem crc8TableAt_eq (v : Byte) : crc8TableAt v = crc8Step v 0 := by
  revert v
  decide

/-- Settles O15. -/
theorem crc8StepIsTableLookup : Obligations.Crc8StepIsTableLookup :=
  ⟨crc8TableAt_eq, fun byte crc => by rw [crc8TableAt_eq, ← crc8Step_eq_crc8Step_xor]⟩

/-! ### Folding a byte list (R102, R105) -/

theorem crc8_singleton (b : Byte) : crc8 [b] = crc8Step b 0 := rfl

theorem crc8_append_byte (bytes : List Byte) (b : Byte) : crc8 (bytes ++ [b]) = crc8Step b (crc8 bytes) :=
  List.foldl_concat ..

theorem crc8_replicate_zero (n : Nat) : crc8 (List.replicate n 0) = 0 := by
  induction n with
  | zero => rfl
  | succ n ih => rw [List.replicate_succ', crc8_append_byte, ih, crc8Step_self]

/-- Settles O13. -/
theorem crc8FoldsFromSeedZero : Obligations.Crc8FoldsFromSeedZero :=
  ⟨fun _ _ => rfl, rfl, crc8_append_byte, crc8_replicate_zero, by decide⟩

/-- Settles O17. -/
theorem crc8ResidueIsZero : Obligations.Crc8ResidueIsZero :=
  fun bytes => by rw [crc8_append_byte, crc8Step_self]

/-- Settles O16: the flipped checksum leaves the residue `T[FF]`, whatever the bytes. -/
theorem crc8StepIsLinear : Obligations.Crc8StepIsLinear := by
  refine ⟨fun x y => ?linear, ?zero, fun bytes => ?flipped⟩
  case linear => simpa only [crc8TableAt_eq] using crc8Step_linear x y
  case zero => rw [crc8TableAt_eq, crc8Step_self]
  case flipped =>
    have hff : crc8 bytes ^^^ 0xFF ^^^ crc8 bytes = 0xFF := by
      rw [BitVec.xor_comm (crc8 bytes), BitVec.xor_assoc, BitVec.xor_self, BitVec.xor_zero]
    rw [crc8_append_byte, crc8Step_eq_crc8Step_xor, hff]
    decide

/-! ### The reflected update (R106) -/

/-- One round of the reflected update. -/
def reflectedRound (c : Byte) : Byte := if c.getLsbD 0 then (c >>> 1) ^^^ 0x8C else c >>> 1

theorem reflectedRound_eq (c : Byte) : reflectedRound c = (c >>> 1) ^^^ if c.getLsbD 0 then 0x8C else 0 :=
  ite_xor_left _ _ _

theorem reflectedRound_linear : XorLinear reflectedRound := by
  intro x y
  have hbit (a b : Bool) : (if (a ^^ b) = true then (0x8C : Byte) else 0) =
      (if a = true then 0x8C else 0) ^^^ if b = true then 0x8C else 0 := by
    cases a <;> cases b <;> rfl
  simp only [reflectedRound_eq, BitVec.ushiftRight_xor_distrib, BitVec.getLsbD_xor, hbit]
  ac_rfl

/-- Rounds of a linear function are linear. -/
theorem XorLinear.foldl {α : Type} {f : Byte → Byte} (hf : XorLinear f) (l : List α) :
    XorLinear fun v => l.foldl (fun c _ => f c) v := by
  induction l with
  | nil => exact fun _ _ => rfl
  | cons a l ih => exact fun x y => by simp only [List.foldl_cons, hf x y, ih (f x) (f y)]

theorem crc8StepReflected_eq (byte crc : Byte) :
    crc8StepReflected byte crc = (List.range 8).foldl (fun c _ => reflectedRound c) (byte ^^^ crc) := by
  rw [BitVec.xor_comm]
  rfl

/-- Settles O18: both are linear in `byte ^ crc`, and they agree on the eight single bits. -/
theorem crc8StepIsReflectedUpdate : Obligations.Crc8StepIsReflectedUpdate := by
  intro byte crc
  rw [crc8StepReflected_eq, crc8Step_eq_crc8Step_xor]
  exact congrFun (crc8Step_linear.ext_bits (reflectedRound_linear.foldl (List.range 8)) (by decide)) _

end Sys2Proof.Machine
end

section
/-! PROOFS. The statements of 42_codec.md. -/

namespace Sys2Proof.Machine

/-- The byte of an int8 is its residue modulo 256. -/
theorem int8Pattern_toNat (n : Int) : ((int8Pattern n).toNat : Int) = n % 256 := by
  rw [int8Pattern, BitVec.toNat_ofInt, Int.toNat_of_nonneg (Int.emod_nonneg _ (by decide))]
  rfl

/-- Settles O26. -/
theorem buildResponseLaysOutNineBytes : Obligations.BuildResponseLaysOutNineBytes :=
  fun _ _ _ _ _ => ⟨⟨rfl, rfl⟩, int8Pattern_toNat⟩

theorem buildResponse_eq (a t : Byte) (level frequency : U16) :
    buildResponse a t level frequency =
      responseBody a t level frequency ++ [crc8 (responseBody a t level frequency)] := rfl

@[simp] theorem buildResponse_length (a t : Byte) (level frequency : U16) :
    (buildResponse a t level frequency).length = 9 := rfl

@[simp] theorem response_length (s : State) : s.response.length = 9 := rfl

/-- Settles O27. -/
theorem responseChecksumRoundTrip : Obligations.ResponseChecksumRoundTrip := by
  intro a t level frequency
  refine ⟨?_, ?_, buildResponse_length ..⟩
  · rw [buildResponse_eq, List.dropLast_concat]
    rfl
  · rw [buildResponse_eq, crc8ResidueIsZero]

theorem int8Value_eq_toInt (b : Byte) : int8Value b = b.toInt := by
  rw [int8Value, BitVec.toInt_eq_msb_cond]
  rfl

theorem u16_lowByte_highByte (v : U16) : u16 (lowByte v) (highByte v) = v := by
  apply BitVec.eq_of_getLsbD_eq
  intro j hj
  simp only [u16, lowByte, highByte, BitVec.getLsbD_or, BitVec.getLsbD_shiftLeft, BitVec.getLsbD_setWidth,
    BitVec.getLsbD_extractLsb']
  by_cases h8 : j < 8
  · simp [h8, hj]
  · simp [h8, hj, show j - 8 < 8 by omega, show j - 8 < 16 by omega, show 8 + (j - 8) = j by omega]

/-- Settles O28. -/
theorem controllerRecoversTheFields : Obligations.ControllerRecoversTheFields := by
  refine ⟨fun a t level frequency => ?_, fun n hlo hhi => ?_⟩
  · simp only [buildResponse, responseBody, List.cons_append, List.nil_append, controllerDecode, if_true,
      u16_lowByte_highByte, int8Value_eq_toInt]
  · rw [int8Value_eq_toInt, int8Pattern, BitVec.toInt_ofInt, Int.bmod_eq_of_le (by omega) (by omega)]

end Sys2Proof.Machine
end

section
/-! PROOFS. The statements of 41_txqueue.md on the queue's operations. -/

namespace Sys2Proof.Machine

/-! ### ENQUEUE (R121) -/

theorem push_read_tail {s : State} (h : QueueInv s) (b : Byte) : (s.push b).qMem.read s.qTail = b :=
  Memory.read_write_self h.memoryWf _ _

theorem push_read_of_ne (s : State) (b : Byte) {a : Nat} (h : a ≠ s.qTail) :
    (s.push b).qMem.read a = s.qMem.read a :=
  Memory.read_write_of_ne _ _ h

/-- Settles O19. -/
theorem enqueueStoresOrDrops : Obligations.EnqueueStoresOrDrops := by
  refine fun s b h => ⟨fun hroom => ?stores, fun hfull => ?drops⟩
  case stores =>
    refine ⟨(s.push b).returning (.ok true), ?_, push_content h hroom b, push_read_tail h b,
      fun _ => push_read_of_ne s b, rfl⟩
    rw [exec, execEnqueue, enqueue_eq h, if_pos hroom, andThen_next]
  case drops =>
    rw [exec, execEnqueue, enqueue_eq h, if_neg (by omega), andThen_next]
    rfl

/-! ### DEQUEUE (R122) -/

/-- Settles O20. -/
theorem dequeueTakesTheOldest : Obligations.DequeueTakesTheOldest := by
  refine fun s h => ⟨fun hsome => ?takes, fun hempty => ?empty⟩
  case takes =>
    refine ⟨s.advanceHead.returning (.popped (s.qMem.read s.qHead) true), ?_, advanceHead_content h hsome, rfl⟩
    rw [exec, execDequeue, dequeue_eq h, if_pos hsome, andThen_next]
  case empty =>
    rw [exec, execDequeue, dequeue_eq h, if_neg (by omega), andThen_next]
    rfl

/-! ### The observers (R123 to R125) -/

theorem content_eq_nil_iff (s : State) : s.content = [] ↔ s.qCount = 0 := by
  rw [← List.length_eq_zero_iff, content_length]

theorem QueueInv.free_eq_zero_iff {s : State} (h : QueueInv s) : s.free = 0 ↔ s.qCount = s.txqCap := by
  have := h.countInRange
  rw [State.free]
  omega

/-- Settles O21. -/
theorem emptyAndLengthObserversOnlyRead : Obligations.EmptyAndLengthObserversOnlyRead :=
  fun s => ⟨rfl, rfl, content_length s, content_eq_nil_iff s, QueueInv.countInRange⟩

/-- Settles O22. -/
theorem fullObserverOnlyReads : Obligations.FullObserverOnlyReads :=
  fun s => ⟨rfl, fun h => s.qFull_eq_true_iff.trans h.free_eq_zero_iff.symm⟩

/-! ### ENQUEUE_FRAME (R127, R129, R131) -/

/-- Settles O23. -/
theorem enqueueFrameQueuesWhatFits : Obligations.EnqueueFrameQueuesWhatFits :=
  fun _ r h => enqueueAll_spec r h

/-! ### Widths (R7, R26) -/

/-- `n` is at most 2 to the power of its `ceilLog2`: the powers of two below `n` have the exponents below it. -/
theorem le_two_pow_ceilLog2 (n : Nat) : n ≤ 2 ^ Config.ceilLog2 n := by
  by_contra hlt
  have hsub : List.range (Config.ceilLog2 n + 1) ⊆ (List.range n).filter fun k => 2 ^ k < n := by
    intro k hk
    have hk : k ≤ Config.ceilLog2 n := Nat.lt_succ_iff.mp (List.mem_range.mp hk)
    have hpow : 2 ^ k < n := (Nat.pow_le_pow_right (by decide) hk).trans_lt (Nat.not_le.mp hlt)
    exact List.mem_filter.mpr ⟨List.mem_range.mpr (Nat.lt_two_pow_self.trans hpow), decide_eq_true hpow⟩
  have hlen := (List.subperm_of_subset List.nodup_range hsub).length_le
  rw [List.length_range, ← Config.ceilLog2] at hlen
  omega

/-- Settles O60. -/
theorem queueRegistersFitTheirWidths : Obligations.QueueRegistersFitTheirWidths := by
  refine ⟨fun s h => ⟨?head, ?tail, ?count⟩, rfl, by decide, by decide⟩
  case head => exact h.headInRange.trans_le (le_two_pow_ceilLog2 _)
  case tail => exact h.tailInRange.trans_le (le_two_pow_ceilLog2 _)
  case count => exact (Nat.lt_succ_of_le h.countInRange).trans_le (le_two_pow_ceilLog2 _)

end Sys2Proof.Machine
end

section
/-! PROOFS. The statements of 43_rxfsm.md on the bytes received, and of 30_encoding.md on the request map. -/

namespace Sys2Proof.Machine

/-! ### The rules, one equation each (R172 to R178) -/

/-- The validation of R176, conjunct by conjunct. -/
theorem frameOk_iff (s : State) (b : Byte) : s.frameOk b = true ↔ s.cnt + 1 = 4 ∧ s.fOpc = 0x06 ∧ s.crcAcc = b := by
  rw [State.frameOk, Bool.and_eq_true, Bool.and_eq_true, and_assoc, State.okLen, State.okOpc, State.okCrc, beq_iff_eq,
    beq_iff_eq, beq_iff_eq]
  rfl

/-- The first failing conjunct (R178, D21). -/
theorem rejection_eq (s : State) (b : Byte) :
    s.rejection b = if s.cnt + 1 = 4 then (if s.fOpc = 0x06 then .rejectCrc s.crcAcc b else .rejectOpcode s.fOpc)
      else .rejectLength (s.cnt + 1) := by
  simp only [State.rejection, State.okLen, State.okOpc, beq_iff_eq]
  rfl

theorem rxDispatch_sync {s : State} (hs : s.st = .waitHeader) : rxDispatch 0x31 s = .next (s.takeHeader 0x31) := by
  simp [rxDispatch, hs, Config.reqSync]

theorem rxDispatch_syncLoss {s : State} {d : Byte} (hs : s.st = .waitHeader) (hd : d ≠ 0x31) :
    rxDispatch d s = .next (s.raise (.syncLoss d)) := by
  have hd' : d ≠ Config.reqSync := hd
  simp [rxDispatch, hs, hd', ruleSyncLoss]

theorem rxDispatch_address {s : State} (hs : s.st = .waitAddress) (d : Byte) :
    rxDispatch d s = .next (s.takeAddress d) := by
  simp [rxDispatch, hs]

theorem rxDispatch_opcode {s : State} (hs : s.st = .waitOpcode) (d : Byte) :
    rxDispatch d s = .next (s.takeOpcode d) := by
  simp [rxDispatch, hs]

theorem rxDispatch_of_accepts {s : State} {d : Byte} (h : s.accepts d) : rxDispatch d s = ruleAccept (s.takeCrc d) := by
  obtain ⟨hs, hok⟩ := h
  have hok' : (s.takeCrc d).frameOk d = true := hok
  simp [rxDispatch, hs, ruleCrc, hok']

theorem rxDispatch_reject {s : State} {d : Byte} (hs : s.st = .waitCrc) (hd : s.frameOk d = false) :
    rxDispatch d s = .next (((s.takeCrc d).raise (s.rejection d)).toWaitHeader) := by
  have hd' : (s.takeCrc d).frameOk d = false := hd
  simp only [rxDispatch, hs, ruleCrc, hd', ruleReject]
  rfl

/-! ### RX_BYTE and the row it selects (R81, R172 to R175) -/

/-- RX_BYTE and a row of it do the same with the byte that the row presents. -/
theorem exec_of_mem_rows {i j : Instr} {d : Byte} (hi : receivedByte i = some d) (hj : j ∈ [Instr.rxByte d, i])
    (s : State) : exec j s = execRxByte d s := by
  rcases List.mem_pair.mp hj with rfl | rfl
  · rfl
  · exact exec_of_receivedByte hi s

/-- Settles O29. -/
theorem syncByteStartsAFrame : Obligations.SyncByteStartsAFrame :=
  fun s hs _ hi => (exec_of_mem_rows (i := .rxByteSync) rfl hi s).trans (rxDispatch_sync (s := s.clearPulse) hs)

/-- Settles O30. -/
theorem otherByteIsASyncLoss : Obligations.OtherByteIsASyncLoss :=
  fun s d hs hd _ hi => (exec_of_mem_rows (i := .rxByteSyncLoss d) rfl hi s).trans
    (rxDispatch_syncLoss (s := s.clearPulse) hs hd)

/-- Settles O31. -/
theorem addressByteIsStoredAndFolded : Obligations.AddressByteIsStoredAndFolded :=
  fun s d hs _ hi => (exec_of_mem_rows (i := .rxByteAddress d) rfl hi s).trans
    (rxDispatch_address (s := s.clearPulse) hs d)

/-- Settles O32. -/
theorem opcodeByteIsStoredAndFolded : Obligations.OpcodeByteIsStoredAndFolded :=
  fun s d hs _ hi => (exec_of_mem_rows (i := .rxByteOpcode d) rfl hi s).trans
    (rxDispatch_opcode (s := s.clearPulse) hs d)

/-- Settles O37. -/
theorem lineFaultForcesWaitHeader : Obligations.LineFaultForcesWaitHeader := fun _ => rfl

/-- Settles O34. -/
theorem invalidFrameIsRejected : Obligations.InvalidFrameIsRejected := by
  intro s d hs hfail i hi
  have hbad : s.frameOk d = false := Bool.eq_false_iff.mpr fun hok => hfail ((frameOk_iff s d).mp hok)
  rw [exec_of_mem_rows (i := .rxByteCrcReject d) rfl hi, execRxByte, rxDispatch_reject (s := s.clearPulse) hs hbad,
    rejection_eq]
  rfl

/-! ### Accept (R177) -/

/-- An accept as a whole: what it queues, what it writes, and every register after it. -/
theorem ruleAccept_whole {s : State} (h : QueueInv s) :
    ∃ t, ruleAccept s = .next t ∧ QueueInv t ∧
      t.content = s.content ++ s.response.take s.free ∧
      (∀ a, (∀ k < min 9 s.free, a ≠ (s.qTail + k) % s.txqCap) → t.qMem.read a = s.qMem.read a) ∧
      t = { s with
        cnt := 0, st := .waitHeader
        evtValid := true, evtAddr := s.fAddr, evtTrace := s.evtTrace ++ [s.fAddr]
        qMem := t.qMem, qTail := (s.qTail + min 9 s.free) % s.txqCap, qCount := s.qCount + min 9 s.free
        diag := s.diag ++ (s.response.drop s.free).map Diag.txOverflow
        enqTrace := s.enqTrace ++ s.response.take s.free
        telDraws := if s.tel = none then s.telDraws + 1 else s.telDraws } := by
  obtain ⟨u, hu, he, hq⟩ := ruleAccept_spec h
  have htail : u.qTail = (s.qTail + min 9 s.free) % s.txqCap := he.tail
  have hcount : u.qCount = s.qCount + min 9 s.free := he.count
  have hdiag : u.diag = s.diag ++ (s.response.drop s.free).map Diag.txOverflow := he.dropped
  have henq : u.enqTrace = s.enqTrace ++ s.response.take s.free := he.accepted
  refine ⟨_, hu, hq.of_eq rfl rfl rfl rfl rfl, he.content, he.storage, ?_⟩
  rw [he.rest, htail, hcount, hdiag, henq, ← State.drawTelemetry_telDraws]
  rfl

/-- Settles O33. -/
theorem validFrameIsAccepted : Obligations.ValidFrameIsAccepted := by
  intro s d hq hs hcnt hopc hcrc i hi
  have haccepts : s.clearPulse.accepts d := ⟨hs, (frameOk_iff s d).mpr ⟨hcnt, hopc, hcrc⟩⟩
  have hq' : QueueInv (s.clearPulse.takeCrc d) := hq.of_eq rfl rfl rfl rfl rfl
  obtain ⟨t, ht, -, hcontent, hmem, hwhole⟩ := ruleAccept_whole hq'
  refine ⟨t, ?_, hcontent, hmem, hwhole⟩
  rw [exec_of_mem_rows (i := .rxByteCrcAccept d) rfl hi, execRxByte, rxDispatch_of_accepts haccepts, ht]

/-- Settles O24. -/
theorem fullQueueDoesNotSuppressTheEvent : Obligations.FullQueueDoesNotSuppressTheEvent := by
  intro s d hfull haccepts
  have haccepts' : s.clearPulse.accepts d := haccepts
  have hrun := ruleAccept_full (s := s.clearPulse.takeCrc d) (Nat.le_of_eq hfull.symm)
  rw [State.drawTelemetry_telDraws, ← rxDispatch_of_accepts haccepts'] at hrun
  exact ⟨_, hrun, rfl, rfl, rfl⟩

/-! ### Every byte completes (R12, R171) -/

/-- A received byte completes, keeps the queue invariants and takes nothing off the content. -/
theorem rxDispatch_completes {s : State} (h : QueueInv s) (b : Byte) :
    ∃ t, rxDispatch b s = .next t ∧ QueueInv t ∧ s.content <+: t.content := by
  rcases rxDispatch_cases b s with ⟨_, _, hr⟩ | ⟨_, _, hr⟩ | ⟨_, hr⟩ | ⟨_, hr⟩ | ⟨_, _, hr⟩ | ⟨_, _, hr⟩
  case inr.inr.inr.inr.inl =>
    obtain ⟨t, ht, hq, hcontent, -⟩ := ruleAccept_whole (s := s.takeCrc b) (h.of_eq rfl rfl rfl rfl rfl)
    exact ⟨t, hr.trans ht, hq, hcontent ▸ List.prefix_append _ _⟩
  all_goals exact ⟨_, hr, h.of_eq rfl rfl rfl rfl rfl, List.prefix_rfl⟩

theorem execRxByte_completes {s : State} (h : QueueInv s) (d : Byte) :
    ∃ t, execRxByte d s = .next t ∧ QueueInv t ∧ s.content <+: t.content :=
  rxDispatch_completes (s := s.clearPulse) (h.of_eq rfl rfl rfl rfl rfl) d

theorem receiveBytes_completes {s : State} (h : QueueInv s) (bytes : List Byte) :
    ∃ t, receiveBytes bytes s = .next t ∧ QueueInv t ∧ s.content <+: t.content := by
  induction bytes generalizing s with
  | nil => exact ⟨s, rfl, h, List.prefix_rfl⟩
  | cons b bytes ih =>
    obtain ⟨u, hu, hq, hsu⟩ := execRxByte_completes h b
    obtain ⟨t, ht, hq', hut⟩ := ih hq
    exact ⟨t, by rw [receiveBytes, hu, andThen_next, ht], hq', hsu.trans hut⟩

/-- Settles O35. -/
theorem everyByteIsDefinedInEveryState : Obligations.EveryByteIsDefinedInEveryState := by
  intro i s d hi
  refine ⟨exec_of_receivedByte hi s, fun h => ?_⟩
  obtain ⟨t, ht, hq, -⟩ := execRxByte_completes h d
  exact ⟨t, (exec_of_receivedByte hi s).trans ht, hq⟩

/-! ### What takes bytes off the queue (R263) -/

theorem enqueue_completes {s : State} (h : QueueInv s) (b : Byte) :
    ∃ r, enqueue b s = .next r ∧ QueueInv r.1 ∧ s.content <+: r.1.content := by
  rw [enqueue_eq h]
  split_ifs with hc
  · exact ⟨_, rfl, push_queueInv h hc b, push_content h hc b ▸ List.prefix_append _ _⟩
  · exact ⟨_, rfl, raise_queueInv h _, List.prefix_rfl⟩

/-- Settles O25, by what the instruction does to the queue: nothing, an enqueue, an enqueue of a list, or what the
bytes received do. -/
theorem contentShrinksOnlyByPopOrReset : Obligations.ContentShrinksOnlyByPopOrReset := by
  intro i s t h hpop hdeq hreset ht
  have received {o : Result State} (ho : ∃ u, o = .next u ∧ QueueInv u ∧ s.content <+: u.content)
      (hot : o = .next t) : s.content <+: t.content ∧ QueueInv t := by
    obtain ⟨u, hu, hq, hcontent⟩ := ho
    obtain rfl := Host.Outcome.next.inj (hu.symm.trans hot)
    exact ⟨hcontent, hq⟩
  cases i with
  | txPop => exact absurd rfl hpop
  | dequeue => exact absurd rfl hdeq
  | reset => exact absurd rfl hreset
  | reservedKind6 | reservedKind7 | reservedData => cases ht
  | readTelemetry | response => exact received (receiveBytes_completes h _) ht
  | rxByte | rxByteSync | rxByteSyncLoss | rxByteAddress | rxByteOpcode | rxByteCrcAccept | rxByteCrcReject =>
    exact received (execRxByte_completes h _) ((exec_of_receivedByte rfl s).symm.trans ht)
  | enqueue b =>
    obtain ⟨r, hr, hq, hcontent⟩ := enqueue_completes h b
    rw [exec, execEnqueue, hr] at ht
    cases ht
    exact ⟨hcontent, hq.of_eq rfl rfl rfl rfl rfl⟩
  | enqueueFrame r =>
    obtain ⟨u, hu, he, hq⟩ := enqueueAll_spec r h
    exact received ⟨u, hu, hq, he.content ▸ List.prefix_append _ _⟩ ht
  | idle | lineErr | txDone | crc8Step | crc8 | isEmpty | len | isFull | buildResponse =>
    cases ht
    exact ⟨List.prefix_rfl, h.of_eq rfl rfl rfl rfl rfl⟩

/-! ### A request from WaitHeader (R78, R84) -/

/-- The state in which a request's first three bytes leave the parser. -/
def State.requested (s : State) (a o : Byte) : State :=
  { s with
    fHdr := 0x31, fAddr := a, fOpc := o, crcAcc := crc8 [0x31, a, o], cnt := 3, st := .waitCrc, evtValid := false }

theorem receiveBytes_request {s : State} (hs : s.st = .waitHeader) (a o c : Byte) :
    receiveBytes [0x31, a, o, c] s = execRxByte c (s.requested a o) := by
  simp only [receiveBytes, execRxByte]
  rw [rxDispatch_sync (s := s.clearPulse) hs, andThen_next, rxDispatch_address rfl, andThen_next, rxDispatch_opcode rfl,
    andThen_next]
  exact andThen_self _

theorem requested_frameOk_iff (s : State) (a o c : Byte) :
    (s.requested a o).frameOk c = true ↔ o = 0x06 ∧ crc8 [0x31, a, o] = c :=
  (frameOk_iff _ c).trans (and_iff_right rfl)

/-- Settles O40. After three bytes the checksum byte decides: the accept and the reject are those of R177 and R178. -/
theorem readTelemetryIsAnsweredFromWaitHeader : Obligations.ReadTelemetryIsAnsweredFromWaitHeader := by
  refine ⟨fun s a c => ⟨receiveBytes_eq_execAll _ s, fun h => ?completes⟩,
    fun s a c h hs => ⟨fun hc => ?accept, fun hc => ?reject⟩⟩
  case completes =>
    obtain ⟨t, ht, hq, -⟩ := receiveBytes_completes h [0x31, a, 0x06, c]
    exact ⟨t, ht, hq⟩
  case accept =>
    obtain ⟨t, ht, hcontent, hmem, hwhole⟩ := validFrameIsAccepted (s.requested a 0x06) c
      (h.of_eq rfl rfl rfl rfl rfl) rfl rfl rfl hc.symm (.rxByte c) (by simp)
    refine ⟨t, (receiveBytes_request hs a 0x06 c).trans ht, hcontent, hmem, ?_⟩
    rw [hwhole, hc]
    rfl
  case reject =>
    have hbad : ¬ ((s.requested a 0x06).cnt + 1 = 4 ∧ (s.requested a 0x06).fOpc = 0x06 ∧
        (s.requested a 0x06).crcAcc = c) := fun ⟨_, _, hok⟩ => hc hok.symm
    exact (receiveBytes_request hs a 0x06 c).trans
      (invalidFrameIsRejected (s.requested a 0x06) c rfl hbad (.rxByte c) (by simp))

/-- A received byte counts at most one up, and short of WaitCrc it neither accepts nor touches the queue. -/
theorem execRxByte_before_crc {s t : State} {d : Byte} (hs : s.st.count.toNat < 3) (h : execRxByte d s = .next t) :
    t.st.count.toNat ≤ s.st.count.toNat + 1 ∧ t.evtTrace = s.evtTrace ∧ t.content = s.content := by
  rcases rxDispatch_cases d s.clearPulse with
    ⟨hst, _, hr⟩ | ⟨hst, _, hr⟩ | ⟨hst, hr⟩ | ⟨hst, hr⟩ | ⟨hst, _⟩ | ⟨hst, _⟩ <;>
    rw [State.clearPulse_st] at hst
  case inr.inr.inr.inr.inl => simp [hst, ParserState.count] at hs
  case inr.inr.inr.inr.inr => simp [hst, ParserState.count] at hs
  all_goals
    obtain rfl := Host.Outcome.next.inj (hr.symm.trans h)
    exact ⟨by simp [hst, ParserState.count], rfl, rfl⟩

/-- Too few bytes to complete a frame accept nothing. -/
theorem receiveBytes_before_crc {s t : State} {bytes : List Byte} (hs : s.st.count.toNat + bytes.length ≤ 3)
    (h : receiveBytes bytes s = .next t) : t.evtTrace = s.evtTrace ∧ t.content = s.content := by
  induction bytes generalizing s with
  | nil => cases h; exact ⟨rfl, rfl⟩
  | cons b bytes ih =>
    rw [List.length_cons] at hs
    obtain ⟨u, hu, ht⟩ := andThen_eq_next.mp h
    obtain ⟨hcount, htrace, hcontent⟩ := execRxByte_before_crc (by omega) hu
    obtain ⟨htrace', hcontent'⟩ := ih (by omega) ht
    exact ⟨htrace'.trans htrace, hcontent'.trans hcontent⟩

/-- Two fields of known widths side by side determine each other. -/
theorem bitVec_append_inj {m n : Nat} {x x' : BitVec m} {y y' : BitVec n} :
    x ++ y = x' ++ y' ↔ x = x' ∧ y = y' := by
  refine ⟨fun h => ⟨?high, ?low⟩, fun ⟨hx, hy⟩ => hx ▸ hy ▸ rfl⟩
  case high => simpa only [BitVec.extractLsb'_append_eq_left] using congrArg (BitVec.extractLsb' n m) h
  case low => simpa only [BitVec.extractLsb'_append_eq_right] using congrArg (BitVec.extractLsb' 0 n) h

theorem requestWord_and (a b c d a' b' c' d' : Byte) :
    requestWord a b c d &&& requestWord a' b' c' d' = requestWord (a &&& a') (b &&& b') (c &&& c') (d &&& d') := by
  unfold requestWord
  rw [← BitVec.and_append, ← BitVec.and_append, ← BitVec.and_append]

theorem requestWord_inj {a b c d a' b' c' d' : Byte} :
    requestWord a b c d = requestWord a' b' c' d' ↔ ((a = a' ∧ b = b') ∧ c = c') ∧ d = d' := by
  unfold requestWord
  rw [bitVec_append_inj, bitVec_append_inj, bitVec_append_inj]

/-- The request map's mask tests the first byte and the third (R78). -/
theorem requestWord_mask_iff (b0 b1 b2 b3 : Byte) :
    requestWord b0 b1 b2 b3 &&& 0xFF00FF00 = 0x31000600 ↔ b0 = 0x31 ∧ b2 = 0x06 := by
  have hmask : (0xFF00FF00 : BitVec 32) = requestWord 0xFF 0x00 0xFF 0x00 := rfl
  have hvalue : (0x31000600 : BitVec 32) = requestWord 0x31 0x00 0x06 0x00 := rfl
  have hkeep (b : Byte) : b &&& 0xFF = b := BitVec.and_allOnes
  have hclear (b : Byte) : b &&& 0x00 = 0x00 := BitVec.and_zero
  rw [hmask, hvalue, requestWord_and, requestWord_inj, hkeep, hkeep, hclear, hclear]
  simp

/-- Settles O41. A first byte other than 31 leaves too few bytes for a frame; after 31 the checksum byte decides. -/
theorem exactlyTheRequestMapIsAccepted : Obligations.ExactlyTheRequestMapIsAccepted := by
  intro s b0 b1 b2 b3 h hs
  obtain ⟨t, ht, hq, -⟩ := receiveBytes_completes h [b0, b1, b2, b3]
  refine ⟨t, (receiveBytes_eq_execAll _ s).symm.trans ht, ?_⟩
  rw [requestWord_mask_iff]
  by_cases h0 : b0 = 0x31
  · subst h0
    have hiff : (0x31 : Byte) = 0x31 ∧ b2 = 0x06 ∧ b3 = crc8 [0x31, b1, 0x06] ↔
        (s.requested b1 b2).accepts b3 := by
      rw [State.accepts, requested_frameOk_iff]
      constructor
      · rintro ⟨-, rfl, rfl⟩
        exact ⟨rfl, rfl, rfl⟩
      · rintro ⟨-, rfl, rfl⟩
        exact ⟨rfl, rfl, rfl⟩
    rw [receiveBytes_request hs] at ht
    rw [and_assoc, hiff]
    rcases rxDispatch_next ht with ⟨hacc, hrun⟩ | ⟨hnot, hrest⟩
    · refine ⟨fun _ => ?_, fun hn => absurd hacc hn⟩
      rw [(ruleAccept_frame hrun).1]
      exact ⟨rfl, rfl⟩
    · refine ⟨fun ha => absurd ha hnot, fun _ => ?_⟩
      rw [hrest]
      exact ⟨rfl, rfl⟩
  · refine ⟨fun ⟨⟨h31, _⟩, _⟩ => absurd h31 h0, fun _ => ?_⟩
    rw [receiveBytes, execRxByte, rxDispatch_syncLoss (s := s.clearPulse) hs h0, andThen_next] at ht
    refine receiveBytes_before_crc (s := s.clearPulse.raise (.syncLoss b0)) ?_ ht
    simp [hs, ParserState.count]

/-! ### A response looped back (R85) -/

/-- In WaitHeader bytes other than 31 are sync losses, and the first of them lets the pulse fall. -/
theorem receiveBytes_syncLoss {s : State} {bytes : List Byte} (hs : s.st = .waitHeader) (h : (0x31 : Byte) ∉ bytes) :
    receiveBytes bytes s =
      .next { s with evtValid := s.evtValid && bytes.isEmpty, diag := s.diag ++ bytes.map Diag.syncLoss } := by
  induction bytes generalizing s with
  | nil => simp [receiveBytes]
  | cons b bytes ih =>
    obtain ⟨hb, hbytes⟩ := List.ne_and_not_mem_of_not_mem_cons h
    rw [receiveBytes, execRxByte, rxDispatch_syncLoss (s := s.clearPulse) hs hb.symm, andThen_next,
      ih (s := s.clearPulse.raise (.syncLoss b)) hs hbytes]
    simp [State.raise, State.clearPulse]

/-- Settles O42. -/
theorem loopedBackResponseIsOrdinaryBytes : Obligations.LoopedBackResponseIsOrdinaryBytes := by
  intro s a t l h f g c
  refine ⟨⟨receiveBytes_eq_execAll _ s, fun hs hbytes => ?losses⟩, fun hq => ?completes⟩
  case losses =>
    refine (receiveBytes_syncLoss hs hbytes).trans ?_
    rw [List.isEmpty_cons, Bool.and_false]
  case completes =>
    obtain ⟨u, hu, hq', -⟩ := receiveBytes_completes hq [0x3E, a, 0x06, t, l, h, f, g, c]
    exact ⟨u, hu, hq'⟩

end Sys2Proof.Machine
end

section
/-! PROOFS. The statements of 44_transport.md on the pop and on what a clock cycle does. -/

namespace Sys2Proof.Machine

/-! ### TX_POP and TX_DONE (R202, R204, R236) -/

theorem txValid_eq_true_iff (s : State) : s.txValid = true ↔ 0 < s.qCount := by
  rw [State.txValid, State.qEmpty, Bool.not_eq_true', beq_eq_false_iff_ne, Nat.pos_iff_ne_zero]

theorem txValid_eq_false_iff (s : State) : s.txValid = false ↔ s.qCount = 0 := by
  rw [State.txValid, Bool.not_eq_false', s.qEmpty_eq_true_iff]

theorem txData_of_pos {s : State} (h : 0 < s.qCount) : s.txData = s.qMem.read s.qHead :=
  if_pos ((txValid_eq_true_iff s).mpr h)

theorem txData_of_empty {s : State} (h : s.qCount = 0) : s.txData = 0 := by
  rw [State.txData, (txValid_eq_false_iff s).mpr h]
  rfl

theorem ruleTxPop_of_empty {s : State} (h : s.qCount = 0) :
    ruleTxPop s = .next ((s.raise .popEmpty).returning (.popped 0 false)) := by
  simp [ruleTxPop, dequeue, h]

theorem ruleTxPop_of_pos {s : State} (h : 0 < s.qCount) (hhead : s.qHead < s.txqCap) :
    ruleTxPop s =
      .next ((s.advanceHead.recordTx (s.qMem.read s.qHead)).returning (.popped (s.qMem.read s.qHead) true)) := by
  simp [ruleTxPop, dequeue, h, memRead_of_lt hhead]

/-- The one fault of the model, met by no state with the queue invariants. -/
theorem ruleTxPop_of_no_entry {s : State} (h : 0 < s.qCount) (hhead : ¬ s.qHead < s.txqCap) :
    ruleTxPop s = .fault (.noQueueEntry s.qHead) := by
  simp [ruleTxPop, dequeue, h, memRead, hhead]

/-- Settles O43. -/
theorem popHandsOverThePresentedByte : Obligations.PopHandsOverThePresentedByte := by
  refine fun s h => ⟨fun hsome => ?takes, fun hempty => ?empty⟩
  case takes =>
    refine ⟨_, ruleTxPop_of_pos (s := s.clearPulse) hsome h.headInRange, ?_, ?_⟩
    · rw [txData_of_pos hsome]
      exact advanceHead_content h hsome
    · rw [txData_of_pos hsome, (txValid_eq_true_iff s).mpr hsome]
      rfl
  case empty =>
    rw [txData_of_empty hempty, (txValid_eq_false_iff s).mpr hempty]
    exact ruleTxPop_of_empty (s := s.clearPulse) hempty

/-- Settles O44. -/
theorem emptyPopHasNoEffect : Obligations.EmptyPopHasNoEffect :=
  fun s hempty => ⟨_, ruleTxPop_of_empty (s := s.clearPulse) hempty, rfl, rfl, rfl⟩

/-- Settles O45. -/
theorem transmitDoneWritesNothing : Obligations.TransmitDoneWritesNothing := fun _ => rfl

/-! ### The order of a cycle (R206 to R208) -/

/-- The pop of a cycle, where it has one. -/
def cyclePop (p : Ports) (s : State) : Result State := if p.txPop then ruleTxPop s else .next s

/-- The cycle without reset, once its telemetry is presented and the pulse has fallen: the pop, then the receive
side. -/
def cycleBody (p : Ports) (s : State) : Result State := andThen (cyclePop p s) (cycleReceive p)

theorem clockCycle_eq_cycleBody {p : Ports} (h : p.rst = false) (s : State) :
    clockCycle p s = cycleBody p (s.present p.telemetry).clearPulse :=
  clockCycle_of_not_rst h s

/-- Cycles with the same reset, pop and telemetry and the same receive side are the same. -/
theorem clockCycle_congr {p q : Ports} (hrst : q.rst = p.rst) (hpop : q.txPop = p.txPop)
    (htel : q.telemetry = p.telemetry) (hreceive : cycleReceive q = cycleReceive p) (s : State) :
    clockCycle q s = clockCycle p s := by
  rcases h : p.rst with _ | _
  · rw [clockCycle_of_not_rst h, clockCycle_of_not_rst (hrst.trans h), hpop, htel, hreceive]
  · rw [clockCycle_of_rst h, clockCycle_of_rst (hrst.trans h)]

/-- Settles O46. -/
theorem oneInputCyclesAreEvents : Obligations.OneInputCyclesAreEvents := by
  refine fun s d => ⟨?byte, ?fault, ?pop, ?done, ?reset, fun p => clockCycle_congr rfl rfl rfl rfl s⟩
  case byte => exact clockCycle_of_not_rst rfl s
  case fault => exact clockCycle_of_not_rst rfl s
  case pop => exact (clockCycle_of_not_rst rfl s).trans (andThen_self _)
  case done => exact clockCycle_of_not_rst rfl s
  case reset => exact clockCycle_of_rst rfl s

theorem andThen_congr {α β : Type} {o : Result α} {f g : α → Result β} (h : ∀ a, o = .next a → f a = g a) :
    andThen o f = andThen o g := by
  cases o with
  | next a => exact h a rfl
  | fault e => rfl
  | refused r => rfl

theorem clearPulse_of_low {s : State} (h : s.evtValid = false) : s.clearPulse = s := by
  rw [State.clearPulse, ← h]

theorem ruleTxPop_evtValid {s t : State} (h : ruleTxPop s = .next t) : t.evtValid = s.evtValid := by
  rcases ruleTxPop_cases h with ⟨-, rfl⟩ | ⟨-, rfl⟩ <;> rfl

/-- Settles O47: the pop leaves the pulse down, so the event's own fall of the pulse adds nothing. -/
theorem popComesBeforeTheReceiveEvent : Obligations.PopComesBeforeTheReceiveEvent := by
  refine fun s d => ⟨?byte, ?fault⟩
  case byte =>
    refine (clockCycle_of_not_rst rfl s).trans (andThen_congr fun u hu => ?_)
    show rxDispatch d u = rxDispatch d u.clearPulse
    rw [clearPulse_of_low (ruleTxPop_evtValid hu)]
  case fault =>
    refine (clockCycle_of_not_rst rfl s).trans (andThen_congr fun u hu => ?_)
    show Host.Outcome.next (ruleLineErr u) = .next (ruleLineErr u.clearPulse)
    rw [clearPulse_of_low (ruleTxPop_evtValid hu)]

theorem cycleReceive_of_fault {p : Ports} (h : p.rxErr = true) (s : State) :
    cycleReceive p s = .next (ruleLineErr s) := by
  rw [cycleReceive, if_pos h]

theorem cycleReceive_of_no_byte {p : Ports} (h : p.rxValid = false) (s : State) :
    cycleReceive p s = if p.rxErr then .next (ruleLineErr s) else .next s := by
  rw [cycleReceive, if_neg (Bool.eq_false_iff.mp h)]

/-- Settles O48. -/
theorem faultDropsTheByteOfItsCycle : Obligations.FaultDropsTheByteOfItsCycle := by
  refine ⟨fun p s herr =>
    clockCycle_congr (p := { p with rxValid := false }) (q := p) rfl rfl rfl ?_ s, fun p s d hunread =>
    clockCycle_congr (p := p) (q := { p with rxData := d }) rfl rfl rfl ?_ s⟩
  · funext u
    rw [cycleReceive_of_fault herr, cycleReceive_of_fault (p := { p with rxValid := false }) herr]
  · funext u
    rcases hunread with herr | hbyte
    · rw [cycleReceive_of_fault herr, cycleReceive_of_fault (p := { p with rxData := d }) herr]
    · rw [cycleReceive_of_no_byte hbyte, cycleReceive_of_no_byte (p := { p with rxData := d }) hbyte]

/-! ### What a cycle can do -/

/-- What a cycle without reset leaves after its pop, before its receive side. -/
structure AfterPop (p : Ports) (s u : State) : Prop where
  transmitSide : TransmitSideOnly (s.present p.telemetry) u
  pulse : u.evtValid = false
  count : u.qCount = if p.txPop then s.qCount - 1 else s.qCount

theorem AfterPop.tel {p : Ports} {s u : State} (h : AfterPop p s u) : u.tel = p.telemetry.or s.tel := by
  rw [h.transmitSide, present_eq]

theorem AfterPop.telDraws {p : Ports} {s u : State} (h : AfterPop p s u) : u.telDraws = s.telDraws := by
  rw [h.transmitSide, present_eq]

theorem AfterPop.txqCap {p : Ports} {s u : State} (h : AfterPop p s u) : u.txqCap = s.txqCap := by
  rw [h.transmitSide, present_eq]

theorem AfterPop.evtAddr {p : Ports} {s u : State} (h : AfterPop p s u) : u.evtAddr = s.evtAddr := by
  rw [h.transmitSide, present_eq]

theorem AfterPop.evtTrace {p : Ports} {s u : State} (h : AfterPop p s u) : u.evtTrace = s.evtTrace := by
  rw [h.transmitSide, present_eq]

theorem AfterPop.sameParser {p : Ports} {s u : State} (h : AfterPop p s u) : SameParser s u := by
  rw [h.transmitSide, present_eq]
  exact .refl s

/-- Whether a byte accepts is read in the Parser State alone. -/
theorem SameParser.accepts_iff {s u : State} (h : SameParser s u) (d : Byte) : u.accepts d ↔ s.accepts d := by
  obtain ⟨hst, -, -, hopc, -, hcrc, hcnt⟩ := h
  rw [State.accepts, State.accepts, frameOk_iff, frameOk_iff, hst, hopc, hcrc, hcnt]

theorem AfterPop.count_le {p : Ports} {s u : State} (h : AfterPop p s u) : u.qCount ≤ s.qCount := by
  rw [h.count]
  split_ifs
  · exact Nat.sub_le _ _
  · exact Nat.le_refl _

/-- Only a pop of the last byte empties the queue. -/
theorem AfterPop.pops_last {p : Ports} {s u : State} (h : AfterPop p s u) (hs : 0 < s.qCount) (hu : u.qCount = 0) :
    p.txPop = true ∧ s.qCount = 1 := by
  have hcount := h.count
  split_ifs at hcount with hpop
  · exact ⟨hpop, by omega⟩
  · omega

theorem afterPop_of_next {p : Ports} {s u : State} (h : cyclePop p (s.present p.telemetry).clearPulse = .next u) :
    AfterPop p s u := by
  have hcount : (s.present p.telemetry).clearPulse.qCount = s.qCount := by rw [present_eq]; rfl
  rw [cyclePop] at h
  split_ifs at h with hpop
  · refine ⟨(ruleTxPop_transmitSideOnly h).of_clearPulse, ruleTxPop_evtValid h, ?_⟩
    rw [if_pos hpop, ← hcount]
    rcases ruleTxPop_cases h with ⟨-, rfl⟩ | ⟨hempty, rfl⟩
    · rfl
    · rw [State.returning_qCount, State.raise_qCount, hempty]
  · cases h
    exact ⟨rfl, rfl, by rw [if_neg hpop, hcount]⟩

/-- The receive side accepts, or touches nothing but the Parser State and the classifications. -/
theorem cycleReceive_next {p : Ports} {u t : State} (h : cycleReceive p u = .next t) :
    ((p.rxErr = false ∧ p.rxValid = true ∧ u.accepts p.rxData) ∧ ruleAccept (u.takeCrc p.rxData) = .next t) ∨
    (¬ (p.rxErr = false ∧ p.rxValid = true ∧ u.accepts p.rxData) ∧ t = { u with
      st := t.st, fHdr := t.fHdr, fAddr := t.fAddr, fOpc := t.fOpc, fCrc := t.fCrc, crcAcc := t.crcAcc, cnt := t.cnt
      diag := t.diag }) := by
  rw [cycleReceive] at h
  split_ifs at h with herr hbyte
  · cases h
    exact .inr ⟨by simp [herr], rfl⟩
  · rcases rxDispatch_next h with ⟨hacc, hrun⟩ | ⟨hnot, hrest⟩
    · exact .inl ⟨⟨Bool.eq_false_iff.mpr herr, hbyte, hacc⟩, hrun⟩
    · exact .inr ⟨fun ⟨_, _, hacc⟩ => hnot hacc, hrest⟩
  · cases h
    exact .inr ⟨fun ⟨_, hb, _⟩ => hbyte hb, rfl⟩

/-- A cycle without reset pops or not, then accepts or touches nothing but the Parser State and the
classifications. -/
theorem clockCycle_next {p : Ports} {s t : State} (hrst : p.rst = false) (h : clockCycle p s = .next t) :
    ∃ u, AfterPop p s u ∧
      ((cycleAccepts p s ∧ ruleAccept (u.takeCrc p.rxData) = .next t) ∨
      (¬ cycleAccepts p s ∧ t = { u with
        st := t.st, fHdr := t.fHdr, fAddr := t.fAddr, fOpc := t.fOpc, fCrc := t.fCrc, crcAcc := t.crcAcc, cnt := t.cnt
        diag := t.diag })) := by
  rw [clockCycle_eq_cycleBody hrst] at h
  obtain ⟨u, hu, ht⟩ := andThen_eq_next.mp h
  have hpop := afterPop_of_next hu
  refine ⟨u, hpop, ?_⟩
  simpa only [cycleAccepts, hrst, true_and, hpop.sameParser.accepts_iff] using cycleReceive_next ht

/-- Settles O50. -/
theorem pulseFollowsTheAccept : Obligations.PulseFollowsTheAccept := by
  intro p s t hrst h
  obtain ⟨u, hpop, ⟨hacc, hrun⟩ | ⟨hnot, hrest⟩⟩ := clockCycle_next hrst h
  · refine ⟨fun _ => ?_, fun hn => absurd hacc hn⟩
    obtain ⟨-, -, haddr, -⟩ := hpop.sameParser
    rw [(ruleAccept_frame hrun).1, ← haddr, ← hpop.evtTrace]
    exact ⟨rfl, rfl, rfl⟩
  · refine ⟨fun ha => absurd ha hnot, fun _ => ?_⟩
    rw [hrest]
    exact ⟨hpop.pulse, hpop.evtAddr, hpop.evtTrace⟩

/-- Settles O51: the count grows in an accept alone, and shrinks by one in a pop alone. -/
theorem transmitIsArmedOnlyByAnAccept : Obligations.TransmitIsArmedOnlyByAnAccept := by
  intro p s t h
  simp only [txValid_eq_false_iff, txValid_eq_true_iff]
  cases hrst : p.rst
  · obtain ⟨u, hpop, ⟨hacc, hrun⟩ | ⟨hnot, hrest⟩⟩ := clockCycle_next hrst h
    · have hgrows : u.qCount ≤ t.qCount := (ruleAccept_frame hrun).2
      exact ⟨fun _ _ => hacc, fun hpos hzero => .inr (hpop.pops_last hpos (by omega))⟩
    · have hkept : t.qCount = u.qCount := by rw [hrest]
      have hle := hpop.count_le
      exact ⟨fun hzero hpos => by omega, fun hpos hzero => .inr (hpop.pops_last hpos (hkept ▸ hzero))⟩
  · rw [clockCycle_of_rst hrst] at h
    cases h
    exact ⟨fun _ hpos => absurd hpos (Nat.lt_irrefl 0), fun _ _ => .inl rfl⟩

/-! ### Telemetry (R153, R214) -/

theorem ruleTxPop_setTel (s : State) (v : Option Telemetry) :
    ruleTxPop (s.setTel v) = andThen (ruleTxPop s) fun t => .next (t.setTel v) := by
  rcases Nat.eq_zero_or_pos s.qCount with hempty | hsome
  · rw [ruleTxPop_of_empty hempty, ruleTxPop_of_empty (s := s.setTel v) hempty]
    rfl
  · by_cases hhead : s.qHead < s.txqCap
    · rw [ruleTxPop_of_pos hsome hhead, ruleTxPop_of_pos (s := s.setTel v) hsome hhead]
      rfl
    · rw [ruleTxPop_of_no_entry hsome hhead, ruleTxPop_of_no_entry (s := s.setTel v) hsome hhead]
      rfl

/-- A byte that does not accept does the same whatever is driven, and leaves it driven. -/
theorem rxDispatch_setTel {s : State} {b : Byte} (h : ¬ s.accepts b) (v : Option Telemetry) :
    rxDispatch b (s.setTel v) = andThen (rxDispatch b s) fun t => .next (t.setTel v) := by
  rcases rxDispatch_cases b s with ⟨hs, rfl, hr⟩ | ⟨hs, hb, hr⟩ | ⟨hs, hr⟩ | ⟨hs, hr⟩ | ⟨hs, hok, hr⟩ | ⟨hs, hok, hr⟩
  case inr.inr.inr.inr.inl => exact absurd ⟨hs, hok⟩ h
  all_goals rw [hr, andThen_next]
  · exact rxDispatch_sync (s := s.setTel v) hs
  · exact rxDispatch_syncLoss (s := s.setTel v) hs hb
  · exact rxDispatch_address (s := s.setTel v) hs b
  · exact rxDispatch_opcode (s := s.setTel v) hs b
  · exact rxDispatch_reject (s := s.setTel v) hs hok

theorem cycleReceive_setTel {p : Ports} {s : State} (h : ¬ (p.rxErr = false ∧ p.rxValid = true ∧ s.accepts p.rxData))
    (v : Option Telemetry) :
    cycleReceive p (s.setTel v) = andThen (cycleReceive p s) fun t => .next (t.setTel v) := by
  simp only [cycleReceive]
  split_ifs with herr hbyte
  · rfl
  · exact rxDispatch_setTel (fun hacc => h ⟨Bool.eq_false_iff.mpr herr, hbyte, hacc⟩) v
  · rfl

theorem andThen_assoc {α β γ : Type} (o : Result α) (f : α → Result β) (g : β → Result γ) :
    andThen (andThen o f) g = andThen o fun a => andThen (f a) g := by
  cases o <;> rfl

/-- After the presentation, a cycle that does not accept does the same whatever is driven, and leaves it driven. -/
theorem cycleBody_setTel {p : Ports} {s : State} (h : ¬ (p.rxErr = false ∧ p.rxValid = true ∧ s.accepts p.rxData))
    (v : Option Telemetry) : cycleBody p (s.setTel v) = andThen (cycleBody p s) fun t => .next (t.setTel v) := by
  rw [cycleBody, cycleBody, cyclePop, cyclePop]
  split_ifs
  · rw [ruleTxPop_setTel, andThen_assoc, andThen_assoc]
    refine andThen_congr fun u hu => cycleReceive_setTel ?_ v
    rwa [(ruleTxPop_transmitSideOnly hu).sameParser.accepts_iff]
  · exact cycleReceive_setTel h v

/-- A pop takes the oldest byte off the content, where there is one. -/
theorem ruleTxPop_content {s t : State} (h : QueueInv s) (ht : ruleTxPop s = .next t) : t.content = s.content.tail := by
  rcases ruleTxPop_cases ht with ⟨hsome, rfl⟩ | ⟨hempty, rfl⟩
  · exact (congrArg List.tail (advanceHead_content h hsome)).symm
  · have hnil : s.content = [] := (content_eq_nil_iff s).mpr hempty
    rw [hnil]
    exact hnil

/-- Under the queue invariants the pop of a cycle completes, with what it leaves queued. -/
theorem afterPop_completes {s : State} (h : QueueInv s) (p : Ports) :
    ∃ u, cyclePop p (s.present p.telemetry).clearPulse = .next u ∧ QueueInv u ∧
      u.content = if p.txPop then s.content.tail else s.content := by
  have hq : QueueInv (s.present p.telemetry).clearPulse := by
    rw [present_eq]
    exact h.of_eq rfl rfl rfl rfl rfl
  have hcontent : (s.present p.telemetry).clearPulse.content = s.content := by
    rw [present_eq]
    rfl
  rw [cyclePop]
  split_ifs
  · obtain ⟨u, hu, hqu⟩ := ruleTxPop_completes hq
    exact ⟨u, hu, hqu, by rw [ruleTxPop_content hq hu, hcontent]⟩
  · exact ⟨_, rfl, hq, hcontent⟩

theorem cycleReceive_of_accepts {p : Ports} {u : State} (herr : p.rxErr = false) (hbyte : p.rxValid = true)
    (h : u.accepts p.rxData) : cycleReceive p u = ruleAccept (u.takeCrc p.rxData) := by
  rw [cycleReceive, if_neg (Bool.eq_false_iff.mp herr), if_pos hbyte, rxDispatch_of_accepts h]

/-- Settles O53. -/
theorem telemetryIsReadOnlyByAnAccept : Obligations.TelemetryIsReadOnlyByAnAccept := by
  refine fun p s => ⟨fun hnot => ⟨fun u htel => ?before, fun v hrst => ?during⟩, fun h hacc => ?accept⟩
  case before =>
    show clockCycle p (s.setTel u) = andThen (clockCycle p s) fun t => .next (t.setTel u)
    cases hrst : p.rst
    · have hnot' : ¬ (p.rxErr = false ∧ p.rxValid = true ∧ s.clearPulse.accepts p.rxData) := fun ha => hnot ⟨hrst, ha⟩
      rw [clockCycle_eq_cycleBody hrst, clockCycle_eq_cycleBody hrst, htel]
      exact cycleBody_setTel hnot' u
    · rw [clockCycle_of_rst hrst, clockCycle_of_rst hrst]
      rfl
  case during =>
    have hnot' : ¬ (p.rxErr = false ∧ p.rxValid = true ∧ s.clearPulse.accepts p.rxData) := fun ha => hnot ⟨hrst, ha⟩
    rw [clockCycle_eq_cycleBody (p := { p with telemetry := some v }) hrst,
      clockCycle_eq_cycleBody (p := { p with telemetry := none }) hrst]
    exact cycleBody_setTel hnot' (some v)
  case accept =>
    obtain ⟨hrst, herr, hbyte, hs⟩ := hacc
    obtain ⟨u, hu, hq, hcontent⟩ := afterPop_completes h p
    have hpop := afterPop_of_next hu
    obtain ⟨t, ht, -, htcontent, -, hwhole⟩ :=
      ruleAccept_whole (s := u.takeCrc p.rxData) (hq.of_eq rfl rfl rfl rfl rfl)
    refine ⟨t, ?_, ?_, ?_, ?_⟩
    · rw [clockCycle_eq_cycleBody hrst, cycleBody, hu, andThen_next,
        cycleReceive_of_accepts herr hbyte ((hpop.sameParser.accepts_iff _).mpr hs), ht]
    · obtain ⟨-, -, haddr, -⟩ := hpop.sameParser
      have hfree : (u.takeCrc p.rxData).free = s.txqCap - u.content.length := by
        rw [content_length, ← hpop.txqCap]
        rfl
      have hresponse : (u.takeCrc p.rxData).response = u.response := rfl
      rw [htcontent, hfree, ← hcontent, hresponse, State.response, State.telemetry_eq_getD, haddr, hpop.tel,
        hpop.telDraws]
      rfl
    · rw [hwhole]
      exact hpop.tel
    · rw [hwhole, ← hpop.tel, ← hpop.telDraws]
      rfl

end Sys2Proof.Machine
end

section
/-! PROOFS. What a step can do: every item but a directive and a reserved word is a run of clock cycles. -/

namespace Sys2Proof.Machine

/-! ### Runs of clock cycles -/

/-- Clock cycles one after another. -/
def runCycles : List Ports → State → Result State
  | [], s => .next s
  | p :: ps, s => andThen (clockCycle p s) (runCycles ps)

theorem runCycles_singleton (p : Ports) (s : State) : runCycles [p] s = clockCycle p s := andThen_self _

/-- The ports of a cycle in which a byte is received and nothing else happens. -/
def bytePorts (d : Byte) : Ports := { rxValid := true, rxData := d }

/-- A received byte is a cycle of its own (R206). -/
theorem execRxByte_eq_clockCycle (d : Byte) (s : State) : execRxByte d s = clockCycle (bytePorts d) s :=
  (clockCycle_of_not_rst (p := bytePorts d) rfl s).symm

theorem receiveBytes_eq_runCycles (bytes : List Byte) (s : State) :
    receiveBytes bytes s = runCycles (bytes.map bytePorts) s := by
  induction bytes generalizing s with
  | nil => rfl
  | cons b bytes ih =>
    rw [receiveBytes, List.map_cons, runCycles, execRxByte_eq_clockCycle]
    exact andThen_congr fun u _ => ih u

/-- An instruction that the decoder gives is a run of cycles, the same one in every state. -/
theorem exec_eq_runCycles_of_decode {r : RawWord} {i : Instr} (h : decode r = .ok i) :
    ∃ ps, ∀ s, exec i s = runCycles ps s := by
  have single {i : Instr} (p : Ports) (hp : ∀ s, clockCycle p s = exec i s) : ∃ ps, ∀ s, exec i s = runCycles ps s :=
    ⟨[p], fun s => (hp s).symm.trans (runCycles_singleton p s).symm⟩
  rcases decode_ok_cases h with rfl | ⟨d, rfl⟩ | rfl | rfl | rfl | rfl | ⟨a, c, rfl⟩ | ⟨a, t, l, h, f, g, c, rfl⟩
  · exact single {} fun s => clockCycle_of_nothing rfl rfl rfl rfl s
  · exact single (bytePorts d) fun s => (execRxByte_eq_clockCycle d s).symm
  · exact single { rxErr := true } fun s => clockCycle_of_not_rst rfl s
  · exact single { txPop := true } fun s => (clockCycle_of_not_rst rfl s).trans (andThen_self _)
  · exact single { txDone := true } fun s => clockCycle_of_not_rst rfl s
  · exact single { rst := true } fun s => clockCycle_of_rst rfl s
  · exact ⟨_, receiveBytes_eq_runCycles _⟩
  · exact ⟨_, receiveBytes_eq_runCycles _⟩

/-! ### The shapes of a step -/

/-- What a step does with the waiting item: it refuses it, takes new telemetry, or runs clock cycles. -/
inductive StepShape
  | refuse (r : Refusal)
  | drive (v : Option Telemetry) (rest : List Input)
  | cycles (ps : List Ports) (rest : List Input)

def StepShape.run : StepShape → State → Result State
  | .refuse r, _ => .refused r
  | .drive v rest, s => .next ((s.setInputs rest).setTel v)
  | .cycles ps rest, s => runCycles ps (s.setInputs rest)

/-- The words that spell no event (R82). -/
def ReservedEvent (w : BitVec 11) : Prop :=
  eventKind w = 6 ∨ eventKind w = 7 ∨ (eventKind w ≠ 1 ∧ eventData w ≠ 0)

theorem decodePlainEvent_eq_error {i : Instr} {k : BitVec 3} {d : Byte} {e : DecodeRefusal}
    (h : decodePlainEvent i k d = .error e) : d ≠ 0 ∧ e = .reservedData k d := by
  rw [decodePlainEvent] at h
  split_ifs at h with hd
  exact ⟨hd, (Except.error.inj h).symm⟩

/-- The decoder refuses reserved event words alone, and a step hands its refusal on. -/
theorem reservedEvent_of_decode_error {w : BitVec 11} {e : DecodeRefusal} (h : decode (.event w) = .error e) :
    ReservedEvent w ∧ ∃ r, ∀ s, undecoded e s = .refused r := by
  have data {i : Instr} {k : BitVec 3} (hk : eventKind w = k) (hk1 : k ≠ 1)
      (hd : decodePlainEvent i (eventKind w) (eventData w) = .error e) :
      ReservedEvent w ∧ ∃ r, ∀ s, undecoded e s = .refused r := by
    obtain ⟨hne, rfl⟩ := decodePlainEvent_eq_error hd
    exact ⟨.inr (.inr ⟨hk ▸ hk1, hne⟩), _, fun _ => rfl⟩
  have kinds : ∀ k : BitVec 3, k = 0 ∨ k = 1 ∨ k = 2 ∨ k = 3 ∨ k = 4 ∨ k = 5 ∨ k = 6 ∨ k = 7 := by decide
  simp only [decode, decodeEvent] at h
  split_ifs at h with h0 h1 h2 h3 h4 h5 h6
  · exact data h0 (by decide) h
  · exact data h2 (by decide) h
  · exact data h3 (by decide) h
  · exact data h4 (by decide) h
  · exact data h5 (by decide) h
  · cases h
    exact ⟨.inl h6, _, fun _ => rfl⟩
  · cases h
    have h7 : eventKind w = 7 := by
      have := kinds (eventKind w)
      tauto
    exact ⟨.inr (.inl h7), _, fun _ => rfl⟩

/-- What waits at the inputs, with the capacity, chooses the shape of the step; it refuses a small capacity and
reserved event words alone. -/
theorem step_shape (cap : Nat) (inputs : List Input) :
    ∃ shape : StepShape,
      (∀ r, shape = .refuse r →
        cap < Config.minCapacity ∨ ∃ w rest, inputs = .word (.event w) :: rest ∧ ReservedEvent w) ∧
      ∀ s : State, s.txqCap = cap → s.inputs = inputs → step s = shape.run s := by
  by_cases hcap : cap < Config.minCapacity
  · exact ⟨.refuse (.capacityBelowOneFrame cap), fun _ _ => .inl hcap,
      fun s hs _ => by rw [← hs] at hcap ⊢; exact step_of_capacity_lt hcap⟩
  replace hcap := Nat.not_lt.mp hcap
  match inputs with
  | [] =>
    refine ⟨.cycles [{}] [], nofun, fun s hs hin => ?_⟩
    have hsame : s.setInputs [] = s := by rw [State.setInputs, ← hin]
    rw [step_of_idle (hs ▸ hcap) hin, StepShape.run, hsame, runCycles_singleton]
    exact (clockCycle_of_nothing (p := {}) rfl rfl rfl rfl s).symm
  | .cycle p :: rest =>
    refine ⟨.cycles [p] rest, nofun, fun s hs hin => ?_⟩
    rw [step_of_cycle (hs ▸ hcap) hin, StepShape.run, runCycles_singleton]
  | .tel v :: rest => exact ⟨.drive v rest, nofun, fun s hs hin => step_of_tel (hs ▸ hcap) hin⟩
  | .word r :: rest =>
    rcases hdec : decode r with e | i
    · cases r with
      | event w =>
        obtain ⟨hreserved, q, hq⟩ := reservedEvent_of_decode_error hdec
        refine ⟨.refuse q, fun _ _ => .inr ⟨w, rest, rfl, hreserved⟩, fun s hs hin => ?_⟩
        rw [step_of_word (hs ▸ hcap) hin, runWord_of_error hdec]
        exact hq _
      | frame bytes =>
        refine ⟨.cycles (bytes.map bytePorts) rest, nofun, fun s hs hin => ?_⟩
        rw [step_of_word (hs ▸ hcap) hin, runWord_of_error hdec, decode_frame_error hdec]
        exact receiveBytes_eq_runCycles bytes _
    · obtain ⟨ps, hps⟩ := exec_eq_runCycles_of_decode hdec
      refine ⟨.cycles ps rest, nofun, fun s hs hin => ?_⟩
      rw [step_of_word (hs ▸ hcap) hin, runWord_of_ok hdec, hps]
      rfl

end Sys2Proof.Machine
end

section
/-! PROOFS. The invariants of 10_state.md and 20_memory.md along every step, and that every event is defined. -/

namespace Sys2Proof.Machine

/-! ### Reset (R37, R39, R260) -/

/-- Settles O1. -/
theorem resetStateHoldsSpecValues : Obligations.ResetStateHoldsSpecValues := by
  unfold Obligations.ResetStateHoldsSpecValues
  decide

/-- Settles O2. -/
theorem resetFromEveryState : Obligations.ResetFromEveryState := exec_reset

/-- A reset empties the queue and the records and sets the parser to WaitHeader, so of the invariants only the
capacity and the form of the storage are left to ask. -/
theorem blockReset_engineInv {s : State} (hcap : Config.minCapacity ≤ s.txqCap) (hwf : s.qMem.wf)
    (hrange : ∀ c ∈ s.qMem, c.1 < s.txqCap) : EngineInv s.blockReset where
  queue :=
    { capacity := hcap
      headInRange := Nat.lt_of_lt_of_le (show 0 < Config.minCapacity by decide) hcap
      countInRange := Nat.zero_le _
      tailPlace := (Nat.zero_mod _).symm
      memoryWf := hwf
      memoryInRange := hrange }
  parser := { countOfState := rfl, headerStored := fun h => absurd rfl h, crcOfReceived := fun h => absurd rfl h }
  record := { fifo := rfl, latestEvent := rfl, pulseHasEvent := nofun, noLengthReject := nofun }

theorem EngineInv.blockReset {s : State} (h : EngineInv s) : EngineInv s.blockReset :=
  blockReset_engineInv h.queue.capacity h.queue.memoryWf h.queue.memoryInRange

/-- Settles O54. The reset state is its own reset. -/
theorem invariantHoldsAtReset : Obligations.InvariantHoldsAtReset :=
  blockReset_engineInv (s := State.reset) (by decide) (by decide) (by decide)

/-! ### Register updates -/

/-- The parser invariants speak of the Parser State alone. -/
theorem ParserInv.of_sameParser {s t : State} (h : ParserInv s) (hst : SameParser s t) : ParserInv t := by
  obtain ⟨hcount, hheader, hcrc⟩ := h
  obtain ⟨h1, h2, h3, h4, -, h6, h7⟩ := hst
  refine ⟨?_, ?_, ?_⟩
  · rw [h1, h7, hcount]
  · rw [h1, h2]
    exact hheader
  · rw [h1, h2, h3, h4, h6, h7]
    exact hcrc

/-- The returned value, what is driven, the draws and the inputs are no part of the invariants. -/
theorem EngineInv.environment {s : State} (h : EngineInv s) (ret : Returned) (tel : Option Telemetry) (telDraws : Nat)
    (inputs : List Input) :
    EngineInv { s with ret := ret, tel := tel, telDraws := telDraws, inputs := inputs } where
  queue := h.queue.of_eq rfl rfl rfl rfl rfl
  parser := h.parser.of_sameParser (.refl s)
  record := ⟨h.record.fifo, h.record.latestEvent, h.record.pulseHasEvent, h.record.noLengthReject⟩

theorem EngineInv.returning {s : State} (h : EngineInv s) (v : Returned) : EngineInv (s.returning v) :=
  h.environment v s.tel s.telDraws s.inputs

theorem EngineInv.setTel {s : State} (h : EngineInv s) (v : Option Telemetry) : EngineInv (s.setTel v) :=
  h.environment s.ret v s.telDraws s.inputs

theorem EngineInv.setInputs {s : State} (h : EngineInv s) (rest : List Input) : EngineInv (s.setInputs rest) :=
  h.environment s.ret s.tel s.telDraws rest

theorem EngineInv.clearPulse {s : State} (h : EngineInv s) : EngineInv s.clearPulse where
  queue := h.queue.of_eq rfl rfl rfl rfl rfl
  parser := h.parser.of_sameParser (.refl s)
  record := ⟨h.record.fifo, h.record.latestEvent, nofun, h.record.noLengthReject⟩

theorem EngineInv.present {s : State} (h : EngineInv s) (v : Option Telemetry) : EngineInv (s.present v) := by
  rw [present_eq]
  exact h.setTel _

/-- Every classification but the length rejection keeps the invariants. -/
theorem EngineInv.raise {s : State} (h : EngineInv s) {d : Diag} (hd : d.code ≠ 2) : EngineInv (s.raise d) where
  queue := raise_queueInv h.queue d
  parser := h.parser.of_sameParser (.refl s)
  record :=
    { fifo := h.record.fifo
      latestEvent := h.record.latestEvent
      pulseHasEvent := h.record.pulseHasEvent
      noLengthReject := by simpa [or_imp, forall_and, hd] using h.record.noLengthReject }

/-- An update of the Parser State keeps the invariants when it keeps the parser's own. -/
theorem EngineInv.of_parser {s t : State} (h : EngineInv s) (hp : ParserInv t)
    (ht : t = { s with
      st := t.st, fHdr := t.fHdr, fAddr := t.fAddr, fOpc := t.fOpc, fCrc := t.fCrc, crcAcc := t.crcAcc
      cnt := t.cnt }) : EngineInv t := by
  refine ⟨?_, hp, ?_⟩
  · rw [ht]
    exact h.queue.of_eq rfl rfl rfl rfl rfl
  · rw [ht]
    exact ⟨h.record.fifo, h.record.latestEvent, h.record.pulseHasEvent, h.record.noLengthReject⟩

theorem toWaitHeader_parserInv (s : State) : ParserInv s.toWaitHeader :=
  ⟨rfl, fun h => absurd rfl h, fun h => absurd rfl h⟩

theorem EngineInv.toWaitHeader {s : State} (h : EngineInv s) : EngineInv s.toWaitHeader :=
  h.of_parser (toWaitHeader_parserInv s) rfl

theorem EngineInv.takeCrc {s : State} (h : EngineInv s) (b : Byte) : EngineInv (s.takeCrc b) :=
  h.of_parser ⟨h.parser.countOfState, h.parser.headerStored, h.parser.crcOfReceived⟩ rfl

theorem EngineInv.takeHeader {s : State} (h : EngineInv s) : EngineInv (s.takeHeader Config.reqSync) := by
  refine h.of_parser ⟨rfl, fun _ => rfl, fun _ => ?_⟩ rfl
  rw [State.takeHeader_crcAcc, State.takeHeader_cnt, ← crc8_singleton]
  rfl

theorem EngineInv.takeAddress {s : State} (h : EngineInv s) (hs : s.st = .waitAddress) (b : Byte) :
    EngineInv (s.takeAddress b) := by
  have hst : s.st ≠ .waitHeader := by simp [hs]
  have hcnt : s.cnt = 1 := by rw [h.parser.countOfState, hs]; rfl
  have hcrc := h.parser.crcOfReceived hst
  rw [hcnt] at hcrc
  refine h.of_parser ⟨?_, fun _ => h.parser.headerStored hst, fun _ => ?_⟩ rfl
  · rw [State.takeAddress_cnt, hcnt]
    rfl
  · rw [State.takeAddress_crcAcc, State.takeAddress_cnt, hcnt, hcrc]
    rfl

theorem EngineInv.takeOpcode {s : State} (h : EngineInv s) (hs : s.st = .waitOpcode) (b : Byte) :
    EngineInv (s.takeOpcode b) := by
  have hst : s.st ≠ .waitHeader := by simp [hs]
  have hcnt : s.cnt = 2 := by rw [h.parser.countOfState, hs]; rfl
  have hcrc := h.parser.crcOfReceived hst
  rw [hcnt] at hcrc
  refine h.of_parser ⟨?_, fun _ => h.parser.headerStored hst, fun _ => ?_⟩ rfl
  · rw [State.takeOpcode_cnt, hcnt]
    rfl
  · rw [State.takeOpcode_crcAcc, State.takeOpcode_cnt, hcnt, hcrc]
    rfl

/-! ### The rules -/

/-- In WaitCrc the count is 3, so no frame is rejected for its length (R186). -/
theorem rejection_code_ne_two {s : State} (h : ParserInv s) (hs : s.st = .waitCrc) (b : Byte) :
    (s.rejection b).code ≠ 2 := by
  have hcnt : s.cnt + 1 = 4 := by rw [h.countOfState, hs]; rfl
  rw [rejection_eq, if_pos hcnt]
  split_ifs <;> simp [Diag.code]

theorem ruleAccept_engineInv {s : State} (h : EngineInv s) : ∃ t, ruleAccept s = .next t ∧ EngineInv t := by
  obtain ⟨t, ht, hq, hcontent, -, hwhole⟩ := ruleAccept_whole h.queue
  refine ⟨t, ht, hq, ?_, ?_⟩
  · rw [hwhole]
    exact ⟨rfl, fun hn => absurd rfl hn, fun hn => absurd rfl hn⟩
  · refine ⟨?fifo, ?latest, ?pulse, ?noLength⟩
    case fifo =>
      rw [hcontent, hwhole]
      simp [h.record.fifo]
    case latest =>
      rw [hwhole]
      simp
    case pulse =>
      rw [hwhole]
      simp
    case noLength =>
      rw [hwhole]
      intro d hd
      rcases List.mem_append.mp hd with hd | hd
      · exact h.record.noLengthReject d hd
      · obtain ⟨b, -, rfl⟩ := List.mem_map.mp hd
        simp [Diag.code]

theorem rxDispatch_engineInv {s : State} (h : EngineInv s) (b : Byte) :
    ∃ t, rxDispatch b s = .next t ∧ EngineInv t := by
  rcases rxDispatch_cases b s with ⟨hs, rfl, hr⟩ | ⟨hs, hb, hr⟩ | ⟨hs, hr⟩ | ⟨hs, hr⟩ | ⟨hs, hok, hr⟩ | ⟨hs, hok, hr⟩
  · exact ⟨_, hr, h.takeHeader⟩
  · exact ⟨_, hr, h.raise (by simp [Diag.code])⟩
  · exact ⟨_, hr, h.takeAddress hs b⟩
  · exact ⟨_, hr, h.takeOpcode hs b⟩
  · obtain ⟨t, ht, hinv⟩ := ruleAccept_engineInv (h.takeCrc b)
    exact ⟨t, hr.trans ht, hinv⟩
  · exact ⟨_, hr, ((h.takeCrc b).raise (rejection_code_ne_two h.parser hs b)).toWaitHeader⟩

theorem ruleLineErr_engineInv {s : State} (h : EngineInv s) : EngineInv (ruleLineErr s) :=
  (h.raise (by simp [Diag.code])).toWaitHeader

/-- A pop moves the oldest byte of the content to the end of what was transmitted (R60). -/
theorem ruleTxPop_engineInv {s : State} (h : EngineInv s) : ∃ t, ruleTxPop s = .next t ∧ EngineInv t := by
  rcases Nat.eq_zero_or_pos s.qCount with hempty | hsome
  · exact ⟨_, ruleTxPop_of_empty hempty, (h.raise (by simp [Diag.code])).returning _⟩
  · refine ⟨_, ruleTxPop_of_pos hsome h.queue.headInRange, EngineInv.returning ⟨?queue, ?parser, ?record⟩ _⟩
    case queue => exact (advanceHead_queueInv h.queue hsome).of_eq rfl rfl rfl rfl rfl
    case parser => exact h.parser.of_sameParser (.refl s)
    case record =>
      refine ⟨?_, h.record.latestEvent, h.record.pulseHasEvent, h.record.noLengthReject⟩
      have hcontent : (s.advanceHead.recordTx (s.qMem.read s.qHead)).content = s.advanceHead.content := rfl
      simp [h.record.fifo, advanceHead_content h.queue hsome, hcontent]

/-! ### The cycle, the step and the run -/

theorem cyclePop_engineInv {s : State} (h : EngineInv s) (p : Ports) : ∃ t, cyclePop p s = .next t ∧ EngineInv t := by
  rw [cyclePop]
  split_ifs
  · exact ruleTxPop_engineInv h
  · exact ⟨_, rfl, h⟩

theorem cycleReceive_engineInv {s : State} (h : EngineInv s) (p : Ports) :
    ∃ t, cycleReceive p s = .next t ∧ EngineInv t := by
  rw [cycleReceive]
  split_ifs
  · exact ⟨_, rfl, ruleLineErr_engineInv h⟩
  · exact rxDispatch_engineInv h _
  · exact ⟨_, rfl, h⟩

theorem clockCycle_engineInv {s : State} (h : EngineInv s) (p : Ports) :
    ∃ t, clockCycle p s = .next t ∧ EngineInv t := by
  cases hrst : p.rst
  · obtain ⟨u, hu, hinv⟩ := cyclePop_engineInv (h.present p.telemetry).clearPulse p
    rw [clockCycle_eq_cycleBody hrst, cycleBody, hu, andThen_next]
    exact cycleReceive_engineInv hinv p
  · exact ⟨_, clockCycle_of_rst hrst s, h.blockReset⟩

theorem runCycles_engineInv {s : State} (h : EngineInv s) (ps : List Ports) :
    ∃ t, runCycles ps s = .next t ∧ EngineInv t := by
  induction ps generalizing s with
  | nil => exact ⟨s, rfl, h⟩
  | cons p ps ih =>
    obtain ⟨u, hu, hinv⟩ := clockCycle_engineInv h p
    obtain ⟨t, ht, hinv'⟩ := ih hinv
    exact ⟨t, andThen_eq_next.mpr ⟨u, hu, ht⟩, hinv'⟩

/-- Under the invariants a step goes on and keeps them, or refuses a reserved event word. -/
theorem step_engineInv {s : State} (h : EngineInv s) :
    (∃ t, step s = .next t ∧ EngineInv t) ∨
    (∃ r, step s = .refused r ∧ ∃ w rest, s.inputs = .word (.event w) :: rest ∧ ReservedEvent w) := by
  obtain ⟨shape, hrefuse, hstep⟩ := step_shape s.txqCap s.inputs
  rw [hstep s rfl rfl]
  cases shape with
  | refuse r => exact .inr ⟨r, rfl, (hrefuse r rfl).resolve_left (Nat.not_lt.mpr h.queue.capacity)⟩
  | drive v rest => exact .inl ⟨_, rfl, (h.setInputs rest).setTel v⟩
  | cycles ps rest => exact .inl (runCycles_engineInv (h.setInputs rest) ps)

theorem step_keeps_engineInv {s t : State} (h : EngineInv s) (ht : step s = .next t) : EngineInv t := by
  rcases step_engineInv h with ⟨u, hu, hinv⟩ | ⟨r, hr, -⟩
  · exact Host.Outcome.next.inj (hu.symm.trans ht) ▸ hinv
  · cases hr.symm.trans ht

/-- Settles O55. -/
theorem everyStepKeepsTheInvariant : Obligations.EveryStepKeepsTheInvariant :=
  fun _ _ => step_keeps_engineInv

/-- Settles O56. -/
theorem everyEventIsDefined : Obligations.EveryEventIsDefined := by
  intro s h
  rcases step_engineInv h with ⟨t, ht, -⟩ | ⟨r, hr, w, rest, hin, hreserved⟩
  · exact ⟨fun _ => ⟨t, ht⟩, fun e he => nomatch ht.symm.trans he⟩
  · refine ⟨fun hplain => ?_, fun e he => nomatch hr.symm.trans he⟩
    obtain ⟨h6, h7, hdata⟩ := hplain w rest hin
    rcases hreserved with hk | hk | ⟨hk, hd⟩
    · exact absurd hk h6
    · exact absurd hk h7
    · exact absurd (hdata hk) hd

/-- A run that goes on is a step that goes on, then the rest of the run. -/
theorem run_succ_next {M : Host.Core} {n : Nat} {s t : M.State} (h : M.run (n + 1) s = .next t) :
    ∃ u, M.step s = .next u ∧ M.run n u = .next t := by
  rw [Host.Core.run] at h
  split at h
  · next u hu => exact ⟨u, hu, h⟩
  · cases h
  · cases h

/-- What holds of a state and is kept by every step holds along every run. -/
theorem run_engineInv {n : Nat} {s t : State} (h : EngineInv s) (ht : core.run n s = .next t) : EngineInv t := by
  induction n generalizing s with
  | zero => exact Host.Outcome.next.inj ht ▸ h
  | succ n ih =>
    obtain ⟨u, hu, hut⟩ := run_succ_next (M := core) ht
    exact ih (step_keeps_engineInv h hu) hut

/-- Settles O59. -/
theorem transmitOrderIsEnqueueOrder : Obligations.TransmitOrderIsEnqueueOrder := by
  intro n s t h ht
  have hfifo := (run_engineInv h ht).record.fifo
  exact ⟨hfifo ▸ List.prefix_append _ _, hfifo⟩

end Sys2Proof.Machine
end

section
/-! PROOFS. The registers that the current frame has not written are unobservable (10_state.md section 8). -/

namespace Sys2Proof.Machine

/-! ### Blindness to the stale registers -/

/-- What is left of an outcome once the stale registers of its state are blanked. -/
def forgetAfter (o : Result State) : Result State := andThen o fun u => .next u.forgetStale

/-- An operation that does the same, up to stale registers, whether or not they are blanked before it. -/
def BlindToStale (f : State → Result State) : Prop := ∀ s, forgetAfter (f s) = forgetAfter (f s.forgetStale)

@[simp] theorem forgetStale_forgetStale (s : State) : s.forgetStale.forgetStale = s.forgetStale := by
  cases hs : s.st <;> simp [State.forgetStale, hs]

@[simp] theorem forgetAfter_forgetAfter (o : Result State) : forgetAfter (forgetAfter o) = forgetAfter o := by
  cases o <;> simp [forgetAfter]

theorem BlindToStale.of_commutes {f : State → Result State} (h : ∀ s, f s.forgetStale = forgetAfter (f s)) :
    BlindToStale f := fun s => by rw [h, forgetAfter_forgetAfter]

/-- States that differ in stale registers alone step alike under a blind operation. -/
theorem BlindToStale.eq_of_forgetStale_eq {f : State → Result State} (hf : BlindToStale f) {s t : State}
    (h : s.forgetStale = t.forgetStale) : forgetAfter (f s) = forgetAfter (f t) := by
  rw [hf s, hf t, h]

/-- Blanking between two operations changes nothing when the second is blind. -/
theorem BlindToStale.forgetAfter_andThen {g : State → Result State} (hg : BlindToStale g) (o : Result State) :
    forgetAfter (andThen o g) = forgetAfter (andThen (forgetAfter o) g) := by
  cases o with
  | next u => exact hg u
  | fault e => rfl
  | refused r => rfl

theorem BlindToStale.andThen {f g : State → Result State} (hf : BlindToStale f) (hg : BlindToStale g) :
    BlindToStale fun s => andThen (f s) g := fun s => by
  rw [hg.forgetAfter_andThen, hf s, ← hg.forgetAfter_andThen]

theorem blindToStale_next : BlindToStale .next := .of_commutes fun _ => rfl

/-! ### The queue's operations do not look at the parser -/

theorem enqueue_of_full {s : State} (h : ¬ s.qCount < s.txqCap) (b : Byte) :
    enqueue b s = .next (s.raise (.txOverflow b), false) := if_neg h

theorem enqueue_of_room {s : State} (h : s.qCount < s.txqCap) (htail : s.qTail < s.txqCap) (b : Byte) :
    enqueue b s = .next (s.push b, true) := by
  rw [enqueue, if_pos h, memWrite_of_lt b htail]
  rfl

theorem enqueue_of_no_entry {s : State} (h : s.qCount < s.txqCap) (htail : ¬ s.qTail < s.txqCap) (b : Byte) :
    enqueue b s = .fault (.noQueueEntry s.qTail) := by
  rw [enqueue, if_pos h, memWrite, if_neg htail]
  rfl

theorem enqueueAll_forgetStale (bytes : List Byte) (s : State) :
    enqueueAll bytes s.forgetStale = forgetAfter (enqueueAll bytes s) := by
  induction bytes generalizing s with
  | nil => rfl
  | cons b bytes ih =>
    rw [enqueueAll, enqueueAll]
    by_cases hroom : s.qCount < s.txqCap
    · by_cases htail : s.qTail < s.txqCap
      · rw [enqueue_of_room hroom htail, enqueue_of_room (s := s.forgetStale) hroom htail]
        exact ih (s.push b)
      · rw [enqueue_of_no_entry hroom htail, enqueue_of_no_entry (s := s.forgetStale) hroom htail]
        rfl
    · rw [enqueue_of_full hroom, enqueue_of_full (s := s.forgetStale) hroom]
      exact ih (s.raise (.txOverflow b))

theorem ruleTxPop_forgetStale (s : State) : ruleTxPop s.forgetStale = forgetAfter (ruleTxPop s) := by
  rcases Nat.eq_zero_or_pos s.qCount with hempty | hsome
  · rw [ruleTxPop_of_empty hempty, ruleTxPop_of_empty (s := s.forgetStale) hempty]
    rfl
  · by_cases hhead : s.qHead < s.txqCap
    · rw [ruleTxPop_of_pos hsome hhead, ruleTxPop_of_pos (s := s.forgetStale) hsome hhead]
      rfl
    · rw [ruleTxPop_of_no_entry hsome hhead, ruleTxPop_of_no_entry (s := s.forgetStale) hsome hhead]
      rfl

/-! ### The receive side reads the registers that the frame has written alone -/

theorem forgetStale_fAddr_of_waitCrc {s : State} (hs : s.st = .waitCrc) : s.forgetStale.fAddr = s.fAddr := by
  simp [State.forgetStale, hs]

/-- An accept reads the address, which the frame has written, and leaves every parser register stale. -/
theorem ruleAccept_forgetStale {s : State} (hs : s.st = .waitCrc) :
    forgetAfter (ruleAccept s) = forgetAfter (ruleAccept s.forgetStale) := by
  have hresponse : s.forgetStale.response = s.response := by
    rw [State.response, forgetStale_fAddr_of_waitCrc hs]
    rfl
  have hrun : ruleAccept s.forgetStale = andThen (forgetAfter (enqueueAll s.response s.drawTelemetry)) fun u =>
      .next (u.emitEvent u.fAddr).toWaitHeader := by
    rw [← enqueueAll_forgetStale, ← hresponse]
    rfl
  rw [hrun, forgetAfter, forgetAfter, forgetAfter, ruleAccept, andThen_assoc, andThen_assoc, andThen_assoc]
  refine andThen_congr fun u hu => ?_
  have hu' : u.st = .waitCrc := by
    rw [(enqueueAll_frame hu).1]
    exact hs
  rw [andThen_next, andThen_next, andThen_next, forgetStale_fAddr_of_waitCrc hu']
  rfl

theorem frameOk_forgetStale {s : State} (hs : s.st = .waitCrc) (b : Byte) :
    s.forgetStale.frameOk b = s.frameOk b := by
  simp [State.frameOk, State.okLen, State.okOpc, State.okCrc, State.cntNew, State.forgetStale, hs]

theorem rejection_forgetStale {s : State} (hs : s.st = .waitCrc) (b : Byte) :
    s.forgetStale.rejection b = s.rejection b := by
  simp [State.rejection, State.okLen, State.okOpc, State.cntNew, State.forgetStale, hs]

theorem rxDispatch_blindToStale (b : Byte) : BlindToStale (rxDispatch b) := by
  intro s
  rcases rxDispatch_cases b s with
    ⟨hs, rfl, hr⟩ | ⟨hs, hb, hr⟩ | ⟨hs, hr⟩ | ⟨hs, hr⟩ | ⟨hs, hok, hr⟩ | ⟨hs, hok, hr⟩ <;>
    rw [hr]
  · rw [Config.reqSync, rxDispatch_sync (s := s.forgetStale) hs]
    rfl
  · rw [rxDispatch_syncLoss (s := s.forgetStale) hs hb]
    simp [forgetAfter, State.forgetStale, State.raise, hs]
  · rw [rxDispatch_address (s := s.forgetStale) hs]
    simp [forgetAfter, State.forgetStale, State.takeAddress, hs]
  · rw [rxDispatch_opcode (s := s.forgetStale) hs]
    simp [forgetAfter, State.forgetStale, State.takeOpcode, hs]
  · have hcrc : (s.forgetStale.takeCrc b).forgetStale = (s.takeCrc b).forgetStale := by
      simp [State.forgetStale, State.takeCrc, hs]
    rw [rxDispatch_of_accepts (s := s.forgetStale) ⟨hs, (frameOk_forgetStale hs b).trans hok⟩,
      ruleAccept_forgetStale (s := s.takeCrc b) hs, ruleAccept_forgetStale (s := s.forgetStale.takeCrc b) hs, hcrc]
  · rw [rxDispatch_reject (s := s.forgetStale) hs ((frameOk_forgetStale hs b).trans hok), rejection_forgetStale hs]
    rfl

/-! ### The cycle and the step -/

theorem cycleReceive_blindToStale (p : Ports) : BlindToStale (cycleReceive p) := by
  intro s
  simp only [cycleReceive]
  split_ifs
  · rfl
  · exact rxDispatch_blindToStale p.rxData s
  · exact blindToStale_next s

theorem cycleBody_blindToStale (p : Ports) : BlindToStale (cycleBody p) := by
  refine BlindToStale.andThen (fun s => ?_) (cycleReceive_blindToStale p)
  simp only [cyclePop]
  split_ifs
  · exact BlindToStale.of_commutes ruleTxPop_forgetStale s
  · exact blindToStale_next s

theorem clockCycle_blindToStale (p : Ports) : BlindToStale (clockCycle p) := by
  intro s
  cases hrst : p.rst
  · have hpresent : (s.forgetStale.present p.telemetry).clearPulse =
        (s.present p.telemetry).clearPulse.forgetStale := by
      rw [present_eq, present_eq]
      rfl
    rw [clockCycle_eq_cycleBody hrst, clockCycle_eq_cycleBody hrst, hpresent]
    exact cycleBody_blindToStale p _
  · rw [clockCycle_of_rst hrst, clockCycle_of_rst hrst]
    rfl

theorem runCycles_blindToStale (ps : List Ports) : BlindToStale (runCycles ps) := by
  induction ps with
  | nil => exact blindToStale_next
  | cons p ps ih => exact (clockCycle_blindToStale p).andThen ih

/-- The inputs and the capacity are no stale registers, so the shape of the step is the same. -/
theorem step_blindToStale : BlindToStale step := by
  intro s
  obtain ⟨shape, -, hstep⟩ := step_shape s.txqCap s.inputs
  rw [hstep s rfl rfl, hstep s.forgetStale rfl rfl]
  cases shape with
  | refuse r => rfl
  | drive v rest => exact blindToStale_next ((s.setInputs rest).setTel v)
  | cycles ps rest => exact runCycles_blindToStale ps (s.setInputs rest)

/-- Settles O57. -/
theorem staleRegistersAreUnobservable : Obligations.StaleRegistersAreUnobservable :=
  ⟨fun _ => rfl, fun _ _ h => step_blindToStale.eq_of_forgetStale_eq h⟩

end Sys2Proof.Machine
end

section
/-! PROOFS. Queue entries outside the content affect no result (10_state.md section 3). -/

namespace Sys2Proof.Machine

/-! ### States that differ in dead entries alone -/

/-- Two states with the queue invariants that differ at most in entries outside the content. -/
structure DeadAlike (s t : State) : Prop where
  left : QueueInv s
  right : QueueInv t
  same : SameButDeadEntries s t

/-- An operation that completes in two such states, and leaves two such states. -/
def KeepsDeadAlike (f : State → Result State) : Prop :=
  ∀ s t, DeadAlike s t → ∃ s' t', f s = .next s' ∧ f t = .next t' ∧ DeadAlike s' t'

/-- The second state is the first with another storage. -/
theorem DeadAlike.exists_eq {s t : State} (h : DeadAlike s t) : ∃ m, t = { s with qMem := m } := ⟨_, h.same.1⟩

theorem DeadAlike.content {s t : State} (h : DeadAlike s t) : t.content = s.content := h.same.2

/-- An update that neither reads nor writes the queue keeps the states alike. -/
theorem DeadAlike.map {s t : State} (h : DeadAlike s t) (g : State → State)
    (hg : ∀ u m, g { u with qMem := m } = { g u with qMem := m } := by exact fun _ _ => rfl)
    (hq : ∀ u, (g u).qMem = u.qMem ∧ (g u).qHead = u.qHead ∧ (g u).qTail = u.qTail ∧ (g u).qCount = u.qCount ∧
      (g u).txqCap = u.txqCap := by exact fun _ => ⟨rfl, rfl, rfl, rfl, rfl⟩) : DeadAlike (g s) (g t) := by
  obtain ⟨sm, sh, st, sc, scap⟩ := hq s
  obtain ⟨tm, th, tt, tc, tcap⟩ := hq t
  refine ⟨h.left.of_eq sm sh st sc scap, h.right.of_eq tm th tt tc tcap, ?_, ?_⟩
  · rw [tm, ← hg, ← h.same.1]
  · rw [content_of_eq tm th tc tcap, content_of_eq sm sh sc scap, h.content]

theorem KeepsDeadAlike.andThen {f g : State → Result State} (hf : KeepsDeadAlike f) (hg : KeepsDeadAlike g) :
    KeepsDeadAlike fun s => andThen (f s) g := by
  intro s t h
  obtain ⟨u, v, hu, hv, huv⟩ := hf s t h
  obtain ⟨s', t', hs, ht, hst⟩ := hg u v huv
  exact ⟨s', t', andThen_eq_next.mpr ⟨u, hu, hs⟩, andThen_eq_next.mpr ⟨v, hv, ht⟩, hst⟩

theorem keepsDeadAlike_next : KeepsDeadAlike .next := fun s t h => ⟨s, t, rfl, rfl, h⟩

/-! ### What the ports show -/

/-- `tx_data` is the oldest byte of the content, or 0x00. -/
theorem txData_eq_headD {s : State} (h : QueueInv s) : s.txData = s.content.headD 0 := by
  rcases Nat.eq_zero_or_pos s.qCount with hempty | hsome
  · rw [txData_of_empty hempty, (content_eq_nil_iff s).mpr hempty]
    rfl
  · rw [txData_of_pos hsome, advanceHead_content h hsome]
    rfl

theorem DeadAlike.outputs {s t : State} (h : DeadAlike s t) : s.outputs = t.outputs := by
  have hdata : s.txData = t.txData := by rw [txData_eq_headD h.left, txData_eq_headD h.right, h.content]
  rw [State.outputs, State.outputs, hdata]
  obtain ⟨m, rfl⟩ := h.exists_eq
  rfl

/-! ### The queue's operations -/

theorem DeadAlike.push {s t : State} (h : DeadAlike s t) (hroom : s.qCount < s.txqCap) (b : Byte) :
    DeadAlike (s.push b) (t.push b) := by
  obtain ⟨m, rfl⟩ := h.exists_eq
  refine ⟨push_queueInv h.left hroom b, push_queueInv h.right hroom b, rfl, ?_⟩
  rw [push_content h.right hroom, push_content h.left hroom, h.content]

theorem DeadAlike.raise {s t : State} (h : DeadAlike s t) (d : Diag) : DeadAlike (s.raise d) (t.raise d) := h.map (·.raise d)

theorem enqueueAll_keepsDeadAlike (bytes : List Byte) : KeepsDeadAlike (enqueueAll bytes) := by
  induction bytes with
  | nil => exact keepsDeadAlike_next
  | cons b bytes ih =>
    intro s t h
    have hcount : t.qCount = s.qCount := by rw [h.same.1]
    have hcap : t.txqCap = s.txqCap := by rw [h.same.1]
    rw [enqueueAll, enqueueAll, enqueue_eq h.left, enqueue_eq h.right, hcount, hcap]
    split_ifs with hroom
    · exact ih _ _ (h.push hroom b)
    · exact ih _ _ (h.raise _)

/-- A pop takes the same byte, for it is the oldest of the same content. -/
theorem ruleTxPop_keepsDeadAlike : KeepsDeadAlike ruleTxPop := by
  intro s t h
  have hcount : t.qCount = s.qCount := by rw [h.same.1]
  rcases Nat.eq_zero_or_pos s.qCount with hempty | hsome
  · exact ⟨_, _, ruleTxPop_of_empty hempty, ruleTxPop_of_empty (hcount.trans hempty),
      (h.raise _).map (·.returning _)⟩
  · have hsome' : 0 < t.qCount := hcount ▸ hsome
    have hcontent := h.content
    rw [advanceHead_content h.left hsome, advanceHead_content h.right hsome'] at hcontent
    obtain ⟨hbyte, hrest⟩ := List.cons.inj hcontent
    refine ⟨_, _, ruleTxPop_of_pos hsome h.left.headInRange, ruleTxPop_of_pos hsome' h.right.headInRange, ?_⟩
    rw [hbyte]
    have hadvance : DeadAlike s.advanceHead t.advanceHead := by
      refine ⟨advanceHead_queueInv h.left hsome, advanceHead_queueInv h.right hsome', ?_, hrest⟩
      obtain ⟨m, rfl⟩ := h.exists_eq
      rfl
    exact hadvance.map (fun u => (u.recordTx _).returning _)

/-! ### The receive side -/

theorem ruleAccept_keepsDeadAlike : KeepsDeadAlike ruleAccept := by
  intro s t h
  have hresponse : t.response = s.response := by
    obtain ⟨m, rfl⟩ := h.exists_eq
    rfl
  have hdraw : DeadAlike s.drawTelemetry t.drawTelemetry := h.map (·.drawTelemetry)
  obtain ⟨u, v, hu, hv, huv⟩ := enqueueAll_keepsDeadAlike s.response _ _ hdraw
  refine ⟨_, _, andThen_eq_next.mpr ⟨u, hu, rfl⟩, andThen_eq_next.mpr ⟨v, ?_, rfl⟩,
    huv.map (fun w => (w.emitEvent w.fAddr).toWaitHeader)⟩
  rw [← hresponse] at hv
  exact hv

theorem rxDispatch_keepsDeadAlike (b : Byte) : KeepsDeadAlike (rxDispatch b) := by
  intro s t h
  have hst : t.st = s.st := by rw [h.same.1]
  have hok : t.frameOk b = s.frameOk b := by
    obtain ⟨m, rfl⟩ := h.exists_eq
    rfl
  rcases rxDispatch_cases b s with ⟨hs, rfl, hr⟩ | ⟨hs, hb, hr⟩ | ⟨hs, hr⟩ | ⟨hs, hr⟩ | ⟨hs, hf, hr⟩ | ⟨hs, hf, hr⟩ <;>
    rw [hs] at hst
  · exact ⟨_, _, hr, rxDispatch_sync hst, h.map (·.takeHeader _)⟩
  · exact ⟨_, _, hr, rxDispatch_syncLoss hst hb, h.map (·.raise _)⟩
  · exact ⟨_, _, hr, rxDispatch_address hst b, h.map (·.takeAddress b)⟩
  · exact ⟨_, _, hr, rxDispatch_opcode hst b, h.map (·.takeOpcode b)⟩
  · have hcrc : DeadAlike (s.takeCrc b) (t.takeCrc b) := h.map (·.takeCrc b)
    rw [hr, rxDispatch_of_accepts ⟨hst, hok.trans hf⟩]
    exact ruleAccept_keepsDeadAlike _ _ hcrc
  · exact ⟨_, _, hr, rxDispatch_reject hst (hok.trans hf),
      h.map (fun u => ((u.takeCrc b).raise (u.rejection b)).toWaitHeader)⟩

/-! ### The cycle and the step -/

theorem DeadAlike.blockReset {s t : State} (h : DeadAlike s t) : DeadAlike s.blockReset t.blockReset := by
  refine ⟨(blockReset_engineInv h.left.capacity h.left.memoryWf h.left.memoryInRange).queue,
    (blockReset_engineInv h.right.capacity h.right.memoryWf h.right.memoryInRange).queue, ?_, rfl⟩
  obtain ⟨m, rfl⟩ := h.exists_eq
  rfl

theorem cycleReceive_keepsDeadAlike (p : Ports) : KeepsDeadAlike (cycleReceive p) := by
  intro s t h
  simp only [cycleReceive]
  split_ifs
  · exact ⟨_, _, rfl, rfl, h.map ruleLineErr⟩
  · exact rxDispatch_keepsDeadAlike p.rxData s t h
  · exact ⟨s, t, rfl, rfl, h⟩

theorem cycleBody_keepsDeadAlike (p : Ports) : KeepsDeadAlike (cycleBody p) := by
  refine KeepsDeadAlike.andThen (fun s t h => ?_) (cycleReceive_keepsDeadAlike p)
  simp only [cyclePop]
  split_ifs
  · exact ruleTxPop_keepsDeadAlike s t h
  · exact ⟨s, t, rfl, rfl, h⟩

theorem clockCycle_keepsDeadAlike (p : Ports) : KeepsDeadAlike (clockCycle p) := by
  intro s t h
  cases hrst : p.rst
  · rw [clockCycle_eq_cycleBody hrst, clockCycle_eq_cycleBody hrst]
    refine cycleBody_keepsDeadAlike p _ _ ?_
    rw [present_eq, present_eq]
    exact h.map (fun u => State.clearPulse { u with tel := p.telemetry.or u.tel })
  · exact ⟨_, _, clockCycle_of_rst hrst s, clockCycle_of_rst hrst t, h.blockReset⟩

theorem runCycles_keepsDeadAlike (ps : List Ports) : KeepsDeadAlike (runCycles ps) := by
  induction ps with
  | nil => exact keepsDeadAlike_next
  | cons p ps ih => exact (clockCycle_keepsDeadAlike p).andThen ih

/-- Settles O58. The inputs and the capacity are the same, so the shape of the step is. -/
theorem deadQueueEntriesAreUnobservable : Obligations.DeadQueueEntriesAreUnobservable := by
  intro s t hs ht hsame
  have h : DeadAlike s t := ⟨hs, ht, hsame⟩
  have hcap : t.txqCap = s.txqCap := by rw [hsame.1]
  have hinputs : t.inputs = s.inputs := by rw [hsame.1]
  have goesOn {f : State → Result State} (hf : KeepsDeadAlike f) (g : State → State) (hg : DeadAlike (g s) (g t)) :
      ∃ s' t', f (g s) = .next s' ∧ f (g t) = .next t' ∧ SameButDeadEntries s' t' ∧ s'.outputs = t'.outputs := by
    obtain ⟨s', t', hs', ht', hst⟩ := hf _ _ hg
    exact ⟨s', t', hs', ht', hst.same, hst.outputs⟩
  obtain ⟨shape, -, hstep⟩ := step_shape s.txqCap s.inputs
  rw [hstep s rfl rfl, hstep t hcap hinputs]
  cases shape with
  | refuse r => exact .inr ⟨r, rfl, rfl⟩
  | drive v rest =>
    exact .inl (goesOn keepsDeadAlike_next (fun u => (u.setInputs rest).setTel v)
      (h.map (fun u => (u.setInputs rest).setTel v)))
  | cycles ps rest =>
    exact .inl (goesOn (runCycles_keepsDeadAlike ps) (·.setInputs rest)
      (h.map (·.setInputs rest)))

end Sys2Proof.Machine
end
